-- ==== Sys2Proof/Word.lean ====
section
/-! DEFINITION. The word types of the engine (spec/00_scope.md section 5: byte, u16, b32). -/

namespace Sys2Proof

/-- `byte`: 8 bits, unsigned. -/
abbrev Byte := BitVec 8

/-- `u16`: 16 bits, unsigned. -/
abbrev U16 := BitVec 16

/-- `b32`: a 32-bit pattern the host may read as an IEEE-754 number; the engine never does (R40). -/
abbrev B32 := BitVec 32

end Sys2Proof
end

