-- ==== Sys2Proof/Syntax.lean ====
section
/-! DEFINITION. The operations, the command kinds, and the records they carry (spec/30_encoding.md, spec/10_state.md R9, R13). -/

namespace Sys2Proof

/-- The 11 command kinds the engine sends (R55; INFO is the command of OPEN). -/
inductive CmdKind where
  | info | laserOn | laserOff | fanOn | fanOff | setFanPower | setLaserPower
  | readHistogram | readConfig | writeConfig | saveConfig
  deriving DecidableEq, Repr

/-- Every command kind, in the order of R55. -/
def CmdKind.all : List CmdKind :=
  [.info, .laserOn, .laserOff, .fanOn, .fanOff, .setFanPower, .setLaserPower,
   .readHistogram, .readConfig, .writeConfig, .saveConfig]

/-- The three command formats (R53). -/
inductive Format where
  | n | p8 | c232
  deriving DecidableEq, Repr

/-- The format of each kind (R53). -/
def CmdKind.format : CmdKind → Format
  | .setFanPower | .setLaserPower => .p8
  | .writeConfig => .c232
  | .info | .laserOn | .laserOff | .fanOn | .fanOff | .readHistogram | .readConfig | .saveConfig => .n

/-- Length in bytes of the `VAR` part of each format (R53). -/
def Format.varLen : Format → Nat
  | .n => 0
  | .p8 => 1
  | .c232 => 232

/-- The response kinds (R57). -/
inductive RespKind where
  | ack | info | hist | cfg
  deriving DecidableEq, Repr

/-- The configuration record as the device reports it: the registers `CFGR` (R13). -/
structure ConfigR where
  bb : Vector U16 15
  bpv : Vector B32 16
  bpd : Vector B32 16
  bsvw : Vector B32 16
  gsc : B32
  sfr : B32
  laserDac : Byte
  fanDac : Byte
  deriving DecidableEq, Repr

/-- The configuration record as the host presents it: the operand register `CFGW` (R9). Its integer
fields are wider than the frame's, so that a value out of range can be presented and refused. -/
structure ConfigW where
  bb : Vector Int 15
  bpv : Vector B32 16
  bpd : Vector B32 16
  bsvw : Vector B32 16
  gsc : B32
  sfr : B32
  laserDac : Int
  fanDac : Int
  deriving DecidableEq, Repr

/-- The all-zero `CFGW`. -/
def ConfigW.zero : ConfigW where
  bb := Vector.replicate 15 0
  bpv := Vector.replicate 16 0
  bpd := Vector.replicate 16 0
  bsvw := Vector.replicate 16 0
  gsc := 0
  sfr := 0
  laserDac := 0
  fanDac := 0

/-- What a command carries besides its kind: nothing, a power level, or a configuration record (R53). -/
inductive Operand where
  | none
  | power (p : Int)
  | config (c : ConfigW)
  deriving DecidableEq, Repr

/-- A layout id (R19, R45). `v18_2` is `LAYOUT_V18_2`, the one id the spec defines; a configuration may
add further ones as data of the same shape (log 17). -/
inductive LayoutId where
  | v18_2
  | other (n : Nat)
  deriving DecidableEq, Repr

/-- Where one field of a frame lies: byte offset and width in bytes (R45). -/
structure Field where
  offset : Nat
  width : Nat
  deriving DecidableEq, Repr

/-- A histogram layout descriptor (R45). -/
structure Layout where
  bin : Vector Field 16
  mtof : Vector Field 4
  temp : Field
  pres : Field
  period : Field
  cksum : Field
  pm : Vector Field 3
  deriving DecidableEq, Repr

/-- The 14 operations (R55, R56), each with the operand it reads (R9). A host cannot present a
fifteenth (R62 (b)). -/
inductive Instr where
  /-- OPEN, `OP` 0 (R109). -/
  | openSession
  /-- LASER_ON, `OP` 1 (R110). -/
  | laserOn
  /-- LASER_OFF, `OP` 2 (R111). -/
  | laserOff
  /-- FAN_ON, `OP` 3 (R112). -/
  | fanOn
  /-- FAN_OFF, `OP` 4 (R113). -/
  | fanOff
  /-- SET_FAN_POWER, `OP` 5, operand `PARAM` (R114). -/
  | setFanPower (param : Int)
  /-- SET_LASER_POWER, `OP` 6, operand `PARAM` (R115). -/
  | setLaserPower (param : Int)
  /-- READ_HISTOGRAM, `OP` 7 (R116). -/
  | readHistogram
  /-- READ_CONFIG, `OP` 8 (R117). -/
  | readConfig
  /-- WRITE_CONFIG, `OP` 9, operand `CFGW` (R118). -/
  | writeConfig (cfgw : ConfigW)
  /-- SAVE_CONFIG, `OP` 10 (R119). -/
  | saveConfig
  /-- VALIDATE, `OP` 11 (R122). -/
  | validate
  /-- BINBOUND, `OP` 12, operand `IDX` (R123). -/
  | binbound (idx : Int)
  /-- CLOSE, `OP` 13 (R124). -/
  | close
  deriving DecidableEq, Repr

end Sys2Proof
end

