-- ==== Sys2Proof/Config.lean ====
section
/-! DEFINITION. The configuration record `CFG` of spec/00_scope.md R6 as plain data, and the open values no file of the spec
gives (spec/93_implementation_defined.md section 2), which are opaque constants. -/

namespace Sys2Proof

/-- One value for each command kind: a per-kind table as plain data. -/
structure PerKind (α : Type) where
  info : α
  laserOn : α
  laserOff : α
  fanOn : α
  fanOff : α
  setFanPower : α
  setLaserPower : α
  readHistogram : α
  readConfig : α
  writeConfig : α
  saveConfig : α
  deriving DecidableEq, Repr

/-- The entry of a per-kind table. -/
def PerKind.get {α : Type} (t : PerKind α) : CmdKind → α
  | .info => t.info
  | .laserOn => t.laserOn
  | .laserOff => t.laserOff
  | .fanOn => t.fanOn
  | .fanOff => t.fanOff
  | .setFanPower => t.setFanPower
  | .setLaserPower => t.setLaserPower
  | .readHistogram => t.readHistogram
  | .readConfig => t.readConfig
  | .writeConfig => t.writeConfig
  | .saveConfig => t.saveConfig

/-- The table of a function on kinds. -/
def PerKind.of {α : Type} (f : CmdKind → α) : PerKind α where
  info := f .info
  laserOn := f .laserOn
  laserOff := f .laserOff
  fanOn := f .fanOn
  fanOff := f .fanOff
  setFanPower := f .setFanPower
  setLaserPower := f .setLaserPower
  readHistogram := f .readHistogram
  readConfig := f .readConfig
  writeConfig := f .writeConfig
  saveConfig := f .saveConfig

/-- A firmware signature and the layout it selects: one entry of `SIGS` (R6, R95). -/
structure Signature where
  bytes : List Byte
  layout : LayoutId
  deriving DecidableEq, Repr

/-- The parameters of R6, one field each. `PM_FN` is a function and never evaluated by the engine, so it
is no field: it is `Config.pmFn` below. `LAYOUTS` is `LAYOUT_V18_2` together with `moreLayouts` (log 17). -/
structure Params where
  opc : PerKind Byte
  fixed : PerKind (List Byte)
  paramW : Nat
  ackLen : Nat
  ackPos : Nat
  ackOk : Byte
  infoLen : Nat
  histLen : Nat
  cfgLen : Nat
  strictLen : Bool
  sigs : List Signature
  ws : List Byte
  settle : PerKind Nat
  moreLayouts : List (Nat × Layout)
  txMax : Nat
  rxMax : Nat
  lenW : Nat
  deriving DecidableEq, Repr

/-- `[OPC(k)] ++ FIXED(k)`, the constant leading bytes of a command (R52). -/
def Params.lead (p : Params) (k : CmdKind) : List Byte :=
  p.opc.get k :: p.fixed.get k

/-- Total length of a command, a function of its kind alone (R53, R54). -/
def Params.totalLength (p : Params) (k : CmdKind) : Nat :=
  (p.lead k).length + k.format.varLen

/-- `SIGS` where no one has given it: OPEN, no default (R6, D16). FREE VALUE, log 4. -/
opaque Config.openSignatures : List Signature

/-- `SETTLE(kind)` where no one has given it: OPEN, no default (R6, D24). FREE VALUE, log 4. -/
opaque Config.openSettle : CmdKind → Nat

/-- `PM_FN(CFGR, BIN[0..15], PERIOD)`, three `b32` patterns: OPEN, uninterpreted, evaluated by no
operation (R97, D14). FREE VALUE, log 4. -/
opaque Config.pmFn : ConfigR → Vector U16 16 → Byte → Vector B32 3

end Sys2Proof
end

