-- ==== Sys2Proof/WellFormed.lean ====
section
/-! DEFINITION. Which configurations the engine has a meaning under (spec/00_scope.md R6, R7), and which operations the operand
registers can present (spec/10_state.md R9). -/

namespace Sys2Proof

/-- R7 (a): no leading string is a prefix of another kind's (so they are also pairwise distinct). -/
def Params.leadsPrefixFree (p : Params) : Bool :=
  CmdKind.all.all fun a => CmdKind.all.all fun b =>
    a == b || !((p.lead a).isPrefixOf (p.lead b))

/-- R7 (b): every expected length reaches the end of its layout. -/
def Params.lengthsCover (p : Params) : Bool :=
  decide (68 ≤ p.histLen) && decide (232 ≤ p.cfgLen) && decide (p.ackPos < p.ackLen) && decide (1 ≤ p.infoLen)

/-- The ids of `LAYOUTS`: `LAYOUT_V18_2` and those the configuration adds (R6, R45). -/
def knownLayout (more : List (Nat × Layout)) : LayoutId → Bool
  | .v18_2 => true
  | .other n => (more.lookup n).isSome

/-- R7 (c): every layout id in `SIGS` is a key of `LAYOUTS`. -/
def Params.sigsKnown (p : Params) : Bool :=
  p.sigs.all fun g => knownLayout p.moreLayouts g.layout

/-- R6, row `SIGS`: a signature is not empty and has no leading or trailing whitespace byte. -/
def cleanSignature (ws : List Byte) (s : List Byte) : Bool :=
  !s.isEmpty && s.head?.all (fun b => !ws.contains b) && s.getLast?.all (fun b => !ws.contains b)

/-- R6, row `SIGS`: signatures are pairwise distinct. -/
def distinctSignatures : List Signature → Bool
  | [] => true
  | g :: rest => rest.all (fun h => h.bytes != g.bytes) && distinctSignatures rest

/-- R6, row `SIGS`. -/
def Params.sigsClean (p : Params) : Bool :=
  p.sigs.all (fun g => cleanSignature p.ws g.bytes) && distinctSignatures p.sigs

/-- The fields of a histogram layout, each with the width in bytes of the register it fills (R12, R45). -/
def Layout.fields (l : Layout) : List (Field × Nat) :=
  l.bin.toList.map (·, 2) ++ l.mtof.toList.map (·, 4) ++
    [(l.temp, 4), (l.pres, 1), (l.period, 1), (l.cksum, 2)] ++ l.pm.toList.map (·, 4)

/-- A layout fits a frame of `n` bytes and gives every field its register's width (R32, R45; spec/93
section 2: "every descriptor fits in its HIST_LEN"). -/
def Layout.fits (l : Layout) (n : Nat) : Bool :=
  l.fields.all fun f => f.1.width == f.2 && decide (f.1.offset + f.2 ≤ n)

/-- Every added layout fits (log 17). -/
def Params.layoutsFit (p : Params) : Bool :=
  p.moreLayouts.all fun e => e.2.fits p.histLen

/-- R6, rows `TX_MAX`, `RX_MAX`, `LEN_W`, `PARAM_W`: capacities hold every command and every expected
frame, the length registers can count them, and the signed operand is at least 10 bits. -/
def Params.capacities (p : Params) : Bool :=
  (CmdKind.all.all fun k => decide (p.totalLength k ≤ p.txMax) && decide (p.totalLength k < 2 ^ p.lenW)) &&
  ([p.ackLen, p.infoLen, p.histLen, p.cfgLen].all fun n => decide (n ≤ p.rxMax) && decide (n < 2 ^ p.lenW)) &&
  decide (9 ≤ p.lenW) && decide (10 ≤ p.paramW)

/-- The configurations of R6 and R7. -/
def Params.wf (p : Params) : Bool :=
  p.leadsPrefixFree && p.lengthsCover && p.sigsKnown && p.sigsClean && p.layoutsFit && p.capacities

/-- `CFG`: parameters together with the proof that they meet R6 and R7. "A `CFG` that breaks (a), (b) or
(c) is refused: the spec gives the engine no meaning under it" (R7): such a record cannot be built (log 2). -/
structure Cfg extends Params where
  ok : toParams.wf = true
  deriving DecidableEq, Repr

/-- `v` is a two's-complement integer of `w` bits (R9). -/
def fitsSigned (w : Nat) (v : Int) : Bool :=
  decide (-(2 ^ (w - 1) : Int) ≤ v) && decide (v < 2 ^ (w - 1))

/-- The integer fields of `CFGW` fit `PARAM_W` bits (R9). -/
def ConfigW.fits (w : Nat) (c : ConfigW) : Bool :=
  c.bb.toList.all (fitsSigned w) && fitsSigned w c.laserDac && fitsSigned w c.fanDac

/-- The operations that operand registers of `w` = `PARAM_W` bits can present (R9). -/
def Instr.wf (w : Nat) : Instr → Bool
  | .setFanPower p | .setLaserPower p => fitsSigned w p
  | .binbound i => fitsSigned w i
  | .writeConfig c => c.fits w
  | .openSession | .laserOn | .laserOff | .fanOn | .fanOff | .readHistogram | .readConfig
  | .saveConfig | .validate | .close => true

end Sys2Proof
end

