-- ==== Sys2Proof/Decode.lean ====
section
/-! DEFINITION. Byte order, frame layouts, the operation and command encodings with their decoders, the encoder, and the
default configuration (spec/20_memory.md, spec/30_encoding.md, spec/40_command_encoder.md R69). -/

namespace Sys2Proof

/-! ## Byte order (R30, R36 to R39) -/

/-- The value of bytes in bus order, least significant first (R30). -/
def leValue : List Byte → Nat
  | [] => 0
  | b :: rest => b.toNat + 256 * leValue rest

/-- The `n` bytes of `v` in bus order, least significant first: `le16` is `leBytes 2`, `le32` is `leBytes 4` (R30, R39). -/
def leBytes : Nat → Nat → List Byte
  | 0, _ => []
  | n + 1, v => BitVec.ofNat 8 v :: leBytes n (v / 256)

/-- `MemRead(addr, n)` (R38). It is used only where `addr + n` is inside the frame (R32). -/
def memRead (frame : List Byte) (addr n : Nat) : Nat :=
  leValue ((frame.drop addr).take n)

/-- `MemWrite(addr, n, v)` (R39). -/
def memWrite (buf : List Byte) (addr n v : Nat) : List Byte :=
  buf.take addr ++ leBytes n v ++ buf.drop (addr + n)

/-- An 8-bit field (R85). -/
def byteAt (frame : List Byte) (a : Nat) : Byte := BitVec.ofNat 8 (memRead frame a 1)

/-- A 16-bit field (R36, R85). -/
def u16At (frame : List Byte) (a : Nat) : U16 := BitVec.ofNat 16 (memRead frame a 2)

/-- A 32-bit pattern (R37, R86). -/
def b32At (frame : List Byte) (a : Nat) : B32 := BitVec.ofNat 32 (memRead frame a 4)

/-! ## Layouts -/

/-- `LAYOUT_V18_2`: the offsets and widths of R41. -/
def layoutV18_2 : Layout where
  bin := Vector.ofFn fun i => ⟨2 * i.val, 2⟩
  mtof := Vector.ofFn fun j => ⟨32 + 4 * j.val, 4⟩
  temp := ⟨48, 4⟩
  pres := ⟨52, 1⟩
  period := ⟨53, 1⟩
  cksum := ⟨54, 2⟩
  pm := Vector.ofFn fun k => ⟨56 + 4 * k.val, 4⟩

/-- `LAYOUTS[id]` (R45). -/
def Params.layoutOf (p : Params) : LayoutId → Option Layout
  | .v18_2 => some layoutV18_2
  | .other n => p.moreLayouts.lookup n

/-- The config frame, and the payload of WRITE_CONFIG: the offsets of R42 (R91). -/
def configOf (frame : List Byte) : ConfigR where
  bb := Vector.ofFn fun i => u16At frame (2 * i.val)
  bpv := Vector.ofFn fun i => b32At frame (30 + 4 * i.val)
  bpd := Vector.ofFn fun i => b32At frame (94 + 4 * i.val)
  bsvw := Vector.ofFn fun i => b32At frame (158 + 4 * i.val)
  gsc := b32At frame 222
  sfr := b32At frame 226
  laserDac := byteAt frame 230
  fanDac := byteAt frame 231

/-- A reported record as an operand: the integer fields widened (R9). -/
def ConfigR.widen (c : ConfigR) : ConfigW where
  bb := c.bb.map fun v => (v.toNat : Int)
  bpv := c.bpv
  bpd := c.bpd
  bsvw := c.bsvw
  gsc := c.gsc
  sfr := c.sfr
  laserDac := c.laserDac.toNat
  fanDac := c.fanDac.toNat

/-- The low `n` bytes of a signed operand: the slices `[15:0]` and `[7:0]` of R66 and R69. -/
def intBytes (n : Nat) (v : Int) : List Byte :=
  leBytes n (v % (256 ^ n : Int)).toNat

/-- `pack_config`, 232 bytes in the layout of R42 (R59, R69). -/
def packConfig (c : ConfigW) : List Byte :=
  c.bb.toList.flatMap (intBytes 2) ++
  c.bpv.toList.flatMap (fun v => leBytes 4 v.toNat) ++
  c.bpd.toList.flatMap (fun v => leBytes 4 v.toNat) ++
  c.bsvw.toList.flatMap (fun v => leBytes 4 v.toNat) ++
  leBytes 4 c.gsc.toNat ++ leBytes 4 c.sfr.toNat ++
  intBytes 1 c.laserDac ++ intBytes 1 c.fanDac

/-- The `VAR` part of a command (R52, R58, R59, R66). -/
def Operand.var : Operand → List Byte
  | .none => []
  | .power p => intBytes 1 p
  | .config c => packConfig c

/-- `command(kind, operands) = [OPC(kind)] ++ FIXED(kind) ++ VAR(kind, operands)` (R52, R66). -/
def Params.command (p : Params) (k : CmdKind) (v : Operand) : List Byte :=
  p.lead k ++ v.var

/-! ## Response kinds -/

/-- The response kind of a command kind (R57). -/
def CmdKind.response : CmdKind → RespKind
  | .info => .info
  | .readHistogram => .hist
  | .readConfig => .cfg
  | .laserOn | .laserOff | .fanOn | .fanOff | .setFanPower | .setLaserPower
  | .writeConfig | .saveConfig => .ack

/-- `RLEN(kind)`, the expected frame length (R57). -/
def Params.rlen (p : Params) (k : CmdKind) : Nat :=
  match k.response with
  | .ack => p.ackLen
  | .info => p.infoLen
  | .hist => p.histLen
  | .cfg => p.cfgLen

/-! ## The operation selector (R55, R56) -/

/-- The operand registers as the host writes them for one operation (R9). -/
structure Request where
  op : BitVec 4
  param : Int
  idx : Int
  cfgw : ConfigW
  deriving DecidableEq, Repr

/-- Why a word is not an operation. -/
inductive DecodeError where
  /-- no row of the table matches the bytes (R62 (a)) -/
  | noCommand
  /-- a row matches and the total length is wrong (R62 (a)) -/
  | wrongLength (k : CmdKind) (actual : Nat)
  /-- `OP` 14 or 15 (R62 (b)) -/
  | noOperation (op : BitVec 4)
  /-- an operation that is not local has no encoding by its selector alone (R61) -/
  | notLocal (op : BitVec 4)
  deriving DecidableEq, Repr

/-- The answer of a decoder. -/
inductive Decoded where
  | instr (i : Instr)
  | rejected (e : DecodeError)
  deriving DecidableEq, Repr

/-- The operation that the four operand registers present (R9, R55, R56). -/
def decodeRequest (r : Request) : Decoded :=
  match r.op.toNat with
  | 0 => .instr .openSession
  | 1 => .instr .laserOn
  | 2 => .instr .laserOff
  | 3 => .instr .fanOn
  | 4 => .instr .fanOff
  | 5 => .instr (.setFanPower r.param)
  | 6 => .instr (.setLaserPower r.param)
  | 7 => .instr .readHistogram
  | 8 => .instr .readConfig
  | 9 => .instr (.writeConfig r.cfgw)
  | 10 => .instr .saveConfig
  | 11 => .instr .validate
  | 12 => .instr (.binbound r.idx)
  | 13 => .instr .close
  | _ => .rejected (.noOperation r.op)

/-- The operation selector of each operation (R55, R56). -/
def Instr.op : Instr → BitVec 4
  | .openSession => 0
  | .laserOn => 1
  | .laserOff => 2
  | .fanOn => 3
  | .fanOff => 4
  | .setFanPower _ => 5
  | .setLaserPower _ => 6
  | .readHistogram => 7
  | .readConfig => 8
  | .writeConfig _ => 9
  | .saveConfig => 10
  | .validate => 11
  | .binbound _ => 12
  | .close => 13

/-! ## Commands read back from bytes (R61) -/

/-- "The kind is the unique `k` with `[OPC(k)] ++ FIXED(k)` a prefix of `s`" (R61). -/
def Params.kindOf (p : Params) (s : List Byte) : Option CmdKind :=
  CmdKind.all.find? fun k => (p.lead k).isPrefixOf s

/-- The operation of a kind whose `VAR` bytes are `v` (R55, R58, R59). INFO is the command of OPEN. -/
def CmdKind.instr (k : CmdKind) (v : List Byte) : Instr :=
  match k with
  | .info => .openSession
  | .laserOn => .laserOn
  | .laserOff => .laserOff
  | .fanOn => .fanOn
  | .fanOff => .fanOff
  | .setFanPower => .setFanPower (memRead v 0 1)
  | .setLaserPower => .setLaserPower (memRead v 0 1)
  | .readHistogram => .readHistogram
  | .readConfig => .readConfig
  | .writeConfig => .writeConfig (configOf v).widen
  | .saveConfig => .saveConfig

/-- A command byte sequence read back as an operation, total on any bytes (R61, R62 (a)). -/
def Params.decodeCommand (p : Params) (s : List Byte) : Decoded :=
  match p.kindOf s with
  | none => .rejected .noCommand
  | some k =>
    if s.length = p.totalLength k then .instr (k.instr (s.drop (p.lead k).length))
    else .rejected (.wrongLength k s.length)

/-- An operation's encoding: command bytes for a bus operation, the selector for a local one (R61). The
selector form carries `IDX`, which no bits of the table hold. -/
inductive Encoding where
  | command (s : List Byte)
  | select (op : BitVec 4) (idx : Int)
  deriving DecidableEq, Repr

/-- The decoder: total on every encoding, rejecting by name (R61, R62). -/
def Params.decode (p : Params) : Encoding → Decoded
  | .command s => p.decodeCommand s
  | .select op idx =>
    match op.toNat with
    | 11 => .instr .validate
    | 12 => .instr (.binbound idx)
    | 13 => .instr .close
    | _ => .rejected (.notLocal op)

/-! ## The encoder -/

/-- The command kind a bus operation sends (R55); local operations send nothing (R56). -/
def Instr.kind : Instr → Option CmdKind
  | .openSession => some .info
  | .laserOn => some .laserOn
  | .laserOff => some .laserOff
  | .fanOn => some .fanOn
  | .fanOff => some .fanOff
  | .setFanPower _ => some .setFanPower
  | .setLaserPower _ => some .setLaserPower
  | .readHistogram => some .readHistogram
  | .readConfig => some .readConfig
  | .writeConfig _ => some .writeConfig
  | .saveConfig => some .saveConfig
  | .validate => none
  | .binbound _ => none
  | .close => none

/-- What its command carries (R53). -/
def Instr.operand : Instr → Operand
  | .setFanPower p => .power p
  | .setLaserPower p => .power p
  | .writeConfig c => .config c
  | .openSession | .laserOn | .laserOff | .fanOn | .fanOff | .readHistogram | .readConfig
  | .saveConfig | .validate | .binbound _ | .close => .none

/-- The index operand a local operation reads (R56). -/
def Instr.index : Instr → Int
  | .binbound i => i
  | .openSession | .laserOn | .laserOff | .fanOn | .fanOff | .setFanPower _ | .setLaserPower _
  | .readHistogram | .readConfig | .writeConfig _ | .saveConfig | .validate | .close => 0

/-- The encoding of an operation (R52, R61). -/
def Params.encode (p : Params) (i : Instr) : Encoding :=
  match i.kind with
  | some k => .command (p.command k i.operand)
  | none => .select i.op i.index

/-- The operand registers that present an operation (R9); what it does not read is zero. -/
def Instr.request (i : Instr) : Request where
  op := i.op
  param := match i.operand with | .power p => p | .none => 0 | .config _ => 0
  idx := i.index
  cfgw := match i.operand with | .config c => c | .none => .zero | .power _ => .zero

/-! ## The default configuration (R6, R60) -/

/-- Default `OPC` (R60; the spec marks every value "from general knowledge, not in source"). -/
def defaultOpc : PerKind Byte where
  info := 0x3F
  laserOn := 0x03
  laserOff := 0x03
  fanOn := 0x03
  fanOff := 0x03
  setFanPower := 0x42
  setLaserPower := 0x42
  readHistogram := 0x30
  readConfig := 0x3C
  writeConfig := 0x3A
  saveConfig := 0x43

/-- Default `FIXED` (R60; marked likewise). -/
def defaultFixed : PerKind (List Byte) where
  info := []
  laserOn := [0x02]
  laserOff := [0x03]
  fanOn := [0x04]
  fanOff := [0x05]
  setFanPower := [0x00]
  setLaserPower := [0x01]
  readHistogram := []
  readConfig := []
  writeConfig := []
  saveConfig := [0x3F, 0x3C, 0x3F, 0x3C, 0x43]

/-- Default `WS` (R6, D16). -/
def defaultWs : List Byte := [0x09, 0x0A, 0x0B, 0x0C, 0x0D, 0x20]

/-- The entries of a list that R6 and R7 (c) allow in `SIGS` under the default `WS` and `LAYOUTS`; a list
that meets them is left as it is. -/
def legalSignatures : List Signature → List Signature
  | [] => []
  | g :: rest =>
    let kept := legalSignatures rest
    if cleanSignature defaultWs g.bytes && knownLayout [] g.layout && kept.all (fun h => h.bytes != g.bytes) then
      g :: kept
    else kept

/-- R6 with every default taken, and the open parameters as given (log 3, log 4). -/
def defaultParams (sigs : List Signature) (settle : CmdKind → Nat) : Params where
  opc := defaultOpc
  fixed := defaultFixed
  paramW := 32
  ackLen := 1
  ackPos := 0
  ackOk := 0xF3
  infoLen := 60
  histLen := 68
  cfgLen := 232
  strictLen := false
  sigs := sigs
  ws := defaultWs
  settle := PerKind.of settle
  moreLayouts := []
  txMax := 233
  rxMax := 232
  lenW := 16

theorem legalSignatures_known (l : List Signature) :
    (legalSignatures l).all (fun g => knownLayout [] g.layout) = true := by
  induction l with
  | nil => rfl
  | cons g rest ih =>
    simp only [legalSignatures]
    split
    · rename_i h
      simp only [Bool.and_eq_true] at h
      simpa [h.1.2] using ih
    · exact ih

theorem legalSignatures_clean (l : List Signature) :
    (legalSignatures l).all (fun g => cleanSignature defaultWs g.bytes) = true := by
  induction l with
  | nil => rfl
  | cons g rest ih =>
    simp only [legalSignatures]
    split
    · rename_i h
      simp only [Bool.and_eq_true] at h
      simpa [h.1.1] using ih
    · exact ih

theorem legalSignatures_distinct (l : List Signature) :
    distinctSignatures (legalSignatures l) = true := by
  induction l with
  | nil => rfl
  | cons g rest ih =>
    simp only [legalSignatures]
    split
    · rename_i h
      simp only [Bool.and_eq_true] at h
      simp [distinctSignatures, ih, h.2]
    · exact ih

/-- A configuration of defaults meets R6 and R7 whenever its signatures do. -/
theorem defaultParams_wf (sigs : List Signature) (settle : CmdKind → Nat)
    (hk : sigs.all (fun g => knownLayout [] g.layout) = true)
    (hc : sigs.all (fun g => cleanSignature defaultWs g.bytes) = true)
    (hd : distinctSignatures sigs = true) : (defaultParams sigs settle).wf = true := by
  have h1 : (defaultParams sigs settle).leadsPrefixFree = true := rfl
  have h2 : (defaultParams sigs settle).lengthsCover = true := rfl
  have h3 : (defaultParams sigs settle).capacities = true := rfl
  have h4 : (defaultParams sigs settle).sigsKnown = true := hk
  have h5 : (defaultParams sigs settle).sigsClean = true := by
    rw [Params.sigsClean, Bool.and_eq_true]; exact ⟨hc, hd⟩
  have h6 : (defaultParams sigs settle).layoutsFit = true := rfl
  simp [Params.wf, h1, h2, h3, h4, h5, h6]

/-- The default configuration: R6 and R60, with the open parameters at their free values (log 3, log 4). -/
def Cfg.defaults : Cfg where
  toParams := defaultParams (legalSignatures Config.openSignatures) Config.openSettle
  ok := defaultParams_wf _ _ (legalSignatures_known _) (legalSignatures_clean _) (legalSignatures_distinct _)

/-! ## Words of the opcode table -/

/-- The `n` bytes of `w` with the byte at offset 0 most significant: the table's numbering (R61, log 10). -/
def tableBytes : Nat → Nat → List Byte
  | 0, _ => []
  | n + 1, w => tableBytes n (w / 256) ++ [BitVec.ofNat 8 w]

/-- Operand bytes of zeros after the bytes the table gives a row (log 10). -/
def Params.padCommand (p : Params) (s : List Byte) : List Byte :=
  match p.kindOf s with
  | none => s
  | some k => s ++ List.replicate (p.totalLength k - s.length) 0

/-- The operation the decoder reads from a word of `nbits` bits numbered as spec/opcode_table.json numbers
them, under the default `OPC` and `FIXED`: a bus row's leading bytes, or a local row's 4-bit `OP` value
(R61, logs 10 and 11). -/
def decodeTableWord (nbits w : Nat) : Option Instr :=
  match Cfg.defaults.decodeCommand (Cfg.defaults.padCommand (tableBytes ((nbits + 7) / 8) w)) with
  | .instr i => some i
  | .rejected _ =>
    if nbits ≤ 8 ∧ w < 16 then
      match Cfg.defaults.decode (.select (BitVec.ofNat 4 w) 0) with
      | .instr i => some i
      | .rejected _ => none
    else none

end Sys2Proof
end

