-- ==== Sys2Proof/Machine/State.lean ====
section
/-! DEFINITION. The state of the engine: every register of spec/10_state.md R9 to R22, the reasons a step can stop, and reset (R24). -/

namespace Sys2Proof.Machine

/-- `SESSION` (R17). -/
inductive Session where
  | uninitialized | handshaking | ready | firmwareFailed | closed
  deriving DecidableEq, Repr

/-- `LASER` and `FAN`, the power sub-state (R18). -/
inductive Power where
  | unknown | off | on
  deriving DecidableEq, Repr

/-- `ERR`, the error code of the last operation (R20, R128). -/
inductive ErrCode where
  | none | transport | framing | firmware | checksum | range | closed | notReady
  deriving DecidableEq, Repr

/-- The histogram record `HIST` (R12). -/
structure Hist where
  bin : Vector U16 16
  mtof : Vector B32 4
  temp : B32
  pres : Byte
  period : Byte
  cksum : U16
  pm : Vector B32 3
  deriving DecidableEq, Repr

/-- The info record: `INFO[0 .. INFO_LEN-1]`, `INFO_LO`, `INFO_HI` (R15). -/
structure Info where
  raw : List Byte
  lo : Nat
  hi : Nat
  deriving DecidableEq, Repr

/-- What the transport answers to one exchange (R107). -/
inductive Answer where
  | fail
  | bytes (r : List Byte)
  deriving DecidableEq, Repr

/-- What one exchange hands to the transport: `Transport(out, settle, n)` (R106, R107). -/
structure BusCall where
  out : List Byte
  settle : Nat
  expected : Nat
  deriving DecidableEq, Repr

/-- Registers that may hold no value when a rule reads them (R14). -/
inductive Unwritten where
  | hist | cfgr | layout
  deriving DecidableEq, Repr

/-- Why a step stops. -/
inductive Fault where
  /-- Raised by the exchange of a bus operation when the transport has no answer: the operation never
  ends (R107, R163; spec/93 U7 "stuck"). Safe: the model stops where the hardware hangs. -/
  | transportSilent
  /-- Raised by VALIDATE, BINBOUND or READ_HISTOGRAM where the presence flag, or the session, promises a
  value and the register holds none: "reading a register that holds no value (`none`) is a fault of the
  model, rule R14" (00_scope.md section 5). A presence flag of 0 is NotReadyError, a next state (R14, R122,
  R123), so reachable states never get here (93_implementation_defined.md U2). Safe. -/
  | noValue (r : Unwritten)
  /-- Raised by READ_HISTOGRAM when `LAYOUT` is no key of `LAYOUTS`. R7 (c) and R19 keep reachable states
  away from it. Safe. -/
  | layoutUnknown
  deriving DecidableEq, Repr

/-- Why an operation has no meaning. -/
inductive Refusal where
  /-- Raised by exec for an operation without a meaning; no arm does. Safe. -/
  | notModelled (mnemonic : String)
  deriving DecidableEq, Repr

/-- The state: the spec's registers by name, then the model's own fields. A buffer is the list of its
valid bytes, the empty list being "no value" (R24); a record no decode has written is `none` (R14). -/
structure State where
  /-- `OP` (R9) -/
  op : BitVec 4
  /-- `PARAM` (R9) -/
  param : Int
  /-- `IDX` (R9) -/
  idx : Int
  /-- `CFGW` (R9) -/
  cfgw : ConfigW
  /-- `TXBUF[0 .. TXLEN-1]` (R10) -/
  txbuf : List Byte
  /-- `TXLEN` (R10) -/
  txlen : Nat
  /-- `RXBUF` (R11) -/
  rxbuf : List Byte
  /-- `RXLEN` (R11) -/
  rxlen : Nat
  /-- `TXI` (R22) -/
  txi : Nat
  /-- `RXI` (R22) -/
  rxi : Nat
  /-- `BIN`, `MTOF`, `TEMP`, `PRES`, `PERIOD`, `CKSUM`, `PM` (R12) -/
  hist : Option Hist
  /-- `BB`, `BPV`, `BPD`, `BSVW`, `GSC`, `SFR`, `LASER_DAC`, `FAN_DAC` (R13) -/
  cfgr : Option ConfigR
  /-- `BBOUT` (R13) -/
  bbout : Option U16
  /-- `INFO`, `INFO_LO`, `INFO_HI` (R15) -/
  info : Option Info
  /-- `ACK` (R16) -/
  ack : Bool
  /-- `VALID` (R16) -/
  valid : Bool
  /-- `HIST_PRESENT` (R16) -/
  histPresent : Bool
  /-- `CFG_PRESENT` (R16) -/
  cfgPresent : Bool
  /-- `INFO_PRESENT` (R16) -/
  infoPresent : Bool
  /-- `SESSION` (R17) -/
  session : Session
  /-- `LASER` (R18) -/
  laser : Power
  /-- `FAN` (R18) -/
  fan : Power
  /-- `LAYOUT` (R19) -/
  layout : Option LayoutId
  /-- `ERR` (R20) -/
  err : ErrCode
  /-- `ERR_EXPECTED` (R20) -/
  errExpected : Nat
  /-- `ERR_ACTUAL` (R20) -/
  errActual : Nat
  /-- `ERR_SIG` (R20) -/
  errSig : Option (List Byte)
  /-- `ERR_SIGLEN` (R20) -/
  errSiglen : Nat
  /-- `ERR_VALUE` (R20) -/
  errValue : Int
  /-- `ERR_FIELD` (R20) -/
  errField : BitVec 6
  /-- `XFER_COUNT` (R21) -/
  xferCount : Nat
  /-- MODEL: the configuration record `CFG`, an argument of the step that no operation changes (R6, R152; log 1) -/
  cfg : Cfg
  /-- MODEL: the operations the host will present, oldest first (R9, R22; log 5) -/
  requests : List Request
  /-- MODEL: the transport's answers to the coming exchanges, oldest first (R2, R107; log 6) -/
  answers : List Answer
  /-- MODEL: what the exchanges so far handed to the transport, newest first (R106; log 7) -/
  bus : List BusCall
  deriving DecidableEq, Repr

/-- Reset under a configuration (R24, R150, R152). `OP`, `PARAM`, `IDX`, `CFGW` are "unspecified until the
host writes them": zero here (log 8). -/
def State.resetWith (c : Cfg) : State where
  op := 0
  param := 0
  idx := 0
  cfgw := .zero
  txbuf := []
  txlen := 0
  rxbuf := []
  rxlen := 0
  txi := 0
  rxi := 0
  hist := none
  cfgr := none
  bbout := none
  info := none
  ack := false
  valid := false
  histPresent := false
  cfgPresent := false
  infoPresent := false
  session := .uninitialized
  laser := .unknown
  fan := .unknown
  layout := none
  err := .none
  errExpected := 0
  errActual := 0
  errSig := none
  errSiglen := 0
  errValue := 0
  errField := 0
  xferCount := 0
  cfg := c
  requests := []
  answers := []
  bus := []

/-- The machine right after reset, under the default configuration (R24; log 3, log 4). -/
def State.reset : State := State.resetWith Cfg.defaults

end Sys2Proof.Machine
end

