-- ==== Sys2Proof/Machine/Ops.lean ====
section
/-! DEFINITION. The shared operations: clearing and raising errors, the gate, the exchange, finish, the skeleton every operation
runs in, and how the host presents an operation (spec/43_operations.md R104 to R108, spec/60_exceptions.md R134, R135). -/

namespace Sys2Proof.Machine

/-! ## Register codes (D17) -/

/-- The 3-bit value of `SESSION` (R17). -/
def Session.code : Session → BitVec 3
  | .uninitialized => 0
  | .handshaking => 1
  | .ready => 2
  | .firmwareFailed => 3
  | .closed => 4

/-- The 2-bit value of `LASER` or `FAN` (R18). -/
def Power.code : Power → BitVec 2
  | .unknown => 0
  | .off => 1
  | .on => 2

/-- The 3-bit value of `ERR` (R128). -/
def ErrCode.code : ErrCode → BitVec 3
  | .none => 0
  | .transport => 1
  | .framing => 2
  | .firmware => 3
  | .checksum => 4
  | .range => 5
  | .closed => 6
  | .notReady => 7

/-! ## The phases of one operation -/

/-- How far an operation has come: on to its next step, ended by a `raise`, or stopped. -/
inductive Run where
  | go (s : State)
  | raised (s : State)
  | stop (f : Fault)
  deriving DecidableEq, Repr

/-- The next step: "a `raise` in any step skips the steps after it" (R104). -/
def Run.andThen (r : Run) (f : State → Run) : Run :=
  match r with
  | .go s => f s
  | .raised s => .raised s
  | .stop x => .stop x

/-- A state change that follows a `raise` (R135 (3)). -/
def Run.onRaise (r : Run) (f : State → State) : Run :=
  match r with
  | .go s => .go s
  | .raised s => .raised (f s)
  | .stop x => .stop x

/-! ## Errors: entry and return (R127 to R137) -/

/-- An error kind with the context it records (R128). -/
inductive Error where
  | transport
  | framing (expected actual : Nat)
  | firmware (sig : List Byte)
  | checksum
  | range (field : BitVec 6) (value : Int)
  | closed
  | notReady
  deriving DecidableEq, Repr

/-- `clear_errors()`: the error registers describe the last operation only (R134). -/
def clearErrors (s : State) : State :=
  { s with
    err := .none, errExpected := 0, errActual := 0, errSig := none, errSiglen := 0, errValue := 0, errField := 0 }

/-- Steps (1) and (2) of `raise` (R135): `ERR` and the context registers of the kind (R128). -/
def recordError (e : Error) (s : State) : State :=
  match e with
  | .transport => { s with err := .transport }
  | .framing expected actual => { s with err := .framing, errExpected := expected, errActual := actual }
  | .firmware sig => { s with err := .firmware, errSig := some sig, errSiglen := sig.length }
  | .checksum => { s with err := .checksum }
  | .range field value => { s with err := .range, errField := field, errValue := value }
  | .closed => { s with err := .closed }
  | .notReady => { s with err := .notReady }

/-- `raise <Kind>(info)`: taking an error. Nothing is saved and nothing is vectored (R135). -/
def raise (e : Error) (s : State) : Run := .raised (recordError e s)

/-- `finish()`: the end of every operation, whether it succeeded or raised (R108); the byte counters are
0 between operations (R22). The "return": the host may present its next operation (R140). -/
def finish (s : State) : State :=
  { s with txbuf := [], txlen := 0, rxbuf := [], rxlen := 0, txi := 0, rxi := 0 }

/-! ## The gate (R105) -/

/-- `gate(OP)` (R105). -/
def gate (op : BitVec 4) (s : State) : Run :=
  if op = 14 ∨ op = 15 then raise .notReady s
  else if op = 11 ∨ op = 12 ∨ op = 13 then .go s
  else if s.session = .closed then raise .closed s
  else if op = 0 then
    if s.session = .uninitialized then .go s else raise .notReady s
  else
    if s.session = .ready then .go s else raise .notReady s

/-! ## The exchange (R106, R107) -/

/-- The start of an exchange (R106): it is counted, `ACK` falls when an ACK response is expected, and the
command bytes, `SETTLE(kind)` and `RLEN(kind)` go to the transport. -/
def startExchange (k : CmdKind) (s : State) : State :=
  { s with
    xferCount := s.xferCount + 1
    ack := if k.response = .ack then false else s.ack
    txi := s.txlen
    bus := { out := s.txbuf.take s.txlen, settle := s.cfg.settle.get k, expected := s.cfg.rlen k } :: s.bus }

/-- The receive step (R107, R11): at most `RX_MAX` bytes are kept, and `RXLEN` counts them all, saturating. -/
def receive (r : List Byte) (s : State) : State :=
  { s with
    rxbuf := r.take s.cfg.rxMax
    rxlen := min r.length (2 ^ s.cfg.lenW - 1)
    rxi := min r.length (2 ^ s.cfg.lenW - 1) }

/-- `exchange(kind)` (R106, R107). With no answer to come the operation never ends (R107, R163; log 6). -/
def exchange (k : CmdKind) (s : State) : Run :=
  match s.answers with
  | [] => .stop .transportSilent
  | .fail :: rest => raise .transport { startExchange k s with answers := rest }
  | .bytes r :: rest => .go (receive r { startExchange k s with answers := rest })

/-! ## The skeleton (R104) -/

/-- An operation: clear the errors, gate, its own steps 3 to 6, finish (R104). -/
def operation (op : BitVec 4) (body : State → Run) (s : State) : Host.Outcome State Fault Refusal :=
  match (gate op (clearErrors s)).andThen body with
  | .go t => .next (finish t)
  | .raised t => .next (finish t)
  | .stop f => .fault f

/-! ## The host's side -/

/-- The host writes the four operand registers (R9). -/
def present (r : Request) (rest : List Request) (s : State) : State :=
  { s with op := r.op, param := r.param, idx := r.idx, cfgw := r.cfgw, requests := rest }

/-- What the host does next: nothing, an operation, or an `OP` value that selects none. -/
inductive Pending where
  | idle
  | run (i : Instr) (s : State)
  | unassigned (s : State)
  deriving DecidableEq, Repr

/-- The next operation: the host writes its request into the operand registers and the engine reads them
(R9); "which operation comes next is the host's choice" (R22; log 5). -/
def nextOperation (s : State) : Pending :=
  match s.requests with
  | [] => .idle
  | r :: rest =>
    let t := present r rest s
    match decodeRequest { op := t.op, param := t.param, idx := t.idx, cfgw := t.cfgw } with
    | .instr i => .run i t
    | .rejected _ => .unassigned t

/-- "Hardware that receives 14 or 15 on a 4-bit port performs no exchange, changes no state but the error
registers, and reports NotReadyError" (R62 (b), R105). -/
def noSuchOperation (s : State) : Host.Outcome State Fault Refusal :=
  operation s.op Run.go s

/-- The request that a table word stands for, put before those already pending; the transport fails its
exchange unless an answer is already pending (log 9). A word that decodes to no operation is presented
as `OP` 15, which selects nothing. -/
def placeWord (nbits w : Nat) (s : State) : State :=
  match decodeTableWord nbits w with
  | some i =>
    { s with
      requests := i.request :: s.requests
      answers := if s.answers.isEmpty then [.fail] else s.answers }
  | none => { s with requests := { op := 15, param := 0, idx := 0, cfgw := .zero } :: s.requests }

end Sys2Proof.Machine
end

