-- ==== Sys2Proof/Machine/Operands.lean ====
section
/-! DEFINITION. The operand range checks and the Command Encoder's step (spec/40_command_encoder.md). -/

namespace Sys2Proof.Machine

/-- `check_power(p)` (R67): the comparison is on the signed operand as presented. -/
def checkPower (p : Int) : Option Error :=
  if p < 0 ∨ p > 255 then some (.range 0 p) else none

/-- The first `BB[i]` outside 0 to 65535, `field` being the code of the first element left (R68, R20). -/
def checkBoundaries (field : Nat) : List Int → Option Error
  | [] => none
  | v :: rest =>
    if v < 0 ∨ v > 65535 then some (.range (BitVec.ofNat 6 field) v) else checkBoundaries (field + 1) rest

/-- A DAC level outside 0 to 255 (R68). -/
def checkDac (field : BitVec 6) (v : Int) : Option Error :=
  if v < 0 ∨ v > 255 then some (.range field v) else none

/-- `check_config(c)` (R68): `BB[0..14]`, then `LASER_DAC`, then `FAN_DAC`; the first failure is reported. -/
def checkConfig (c : ConfigW) : Option Error :=
  match checkBoundaries 2 c.bb.toList with
  | some e => some e
  | none =>
    match checkDac 17 c.laserDac with
    | some e => some e
    | none => checkDac 18 c.fanDac

/-- The range check of each format (R66). -/
def checkOperand : Operand → Option Error
  | .none => none
  | .power p => checkPower p
  | .config c => checkConfig c

/-- The index check of BINBOUND (R123). -/
def checkIndex (i : Int) : Option Error :=
  if i < 0 ∨ i > 14 then some (.range 1 i) else none

/-- `encode(kind, operand)` (R65, R66): a complete command in `TXBUF`, or a RangeError and nothing written. -/
def encodeCommand (k : CmdKind) (v : Operand) (s : State) : Run :=
  match checkOperand v with
  | some e => raise e s
  | none => .go { s with txbuf := s.cfg.command k v, txlen := (s.cfg.command k v).length }

/-- Steps 3 and 4 of a bus operation: `encode(kind); exchange(kind)` (R104). -/
def sendCommand (k : CmdKind) (v : Operand) (s : State) : Run :=
  (encodeCommand k v s).andThen (exchange k)

end Sys2Proof.Machine
end

