-- ==== Sys2Proof/Machine/Flags.lean ====
section
/-! DEFINITION. The computation of `ACK` and `VALID`, and the Checksum Validator (spec/10_state.md R16, spec/42_checksum_validator.md). -/

namespace Sys2Proof.Machine

/-- `sum16(BIN)`: the true sum reduced mod 2^16 (R99). -/
def sum16 (bin : Vector U16 16) : U16 :=
  BitVec.ofNat 16 (bin.toList.map BitVec.toNat).sum

/-- The value `validate()` gives `VALID` (R100): it depends on the bins and the checksum alone (R98). -/
def validFlag (h : Hist) : Bool := sum16 h.bin == h.cksum

/-- The value an acknowledge frame gives `ACK` (R92). -/
def ackFlag (c : Cfg) (frame : List Byte) : Bool := frame[c.ackPos]? == some c.ackOk

/-- The validation step: `VALID` is written, and a mismatch is reported with the data kept (R100, R101,
R116, R132). -/
def validateRecord (s : State) : Run :=
  match s.hist with
  | none => .stop (.noValue .hist)
  | some h =>
    if validFlag h then .go { s with valid := true } else raise .checksum { s with valid := false }

end Sys2Proof.Machine
end

