-- ==== Sys2Proof/Machine/Frames.lean ====
section
/-! DEFINITION. The Response Decoder: the length check, one decode rule per response kind, trimming and classification
(spec/41_response_decoder.md). -/

namespace Sys2Proof.Machine

/-- `check_length(kind)` (R83). -/
def checkLength (k : CmdKind) (s : State) : Run :=
  if s.rxlen < s.cfg.rlen k then raise (.framing (s.cfg.rlen k) s.rxlen) s
  else if s.cfg.strictLen = true ∧ s.rxlen > s.cfg.rlen k then raise (.framing (s.cfg.rlen k) s.rxlen) s
  else .go s

/-- A histogram frame read through a layout descriptor (R41, R45, R88, R90). -/
def histOf (l : Layout) (frame : List Byte) : Hist where
  bin := l.bin.map fun f => BitVec.ofNat 16 (memRead frame f.offset f.width)
  mtof := l.mtof.map fun f => BitVec.ofNat 32 (memRead frame f.offset f.width)
  temp := BitVec.ofNat 32 (memRead frame l.temp.offset l.temp.width)
  pres := BitVec.ofNat 8 (memRead frame l.pres.offset l.pres.width)
  period := BitVec.ofNat 8 (memRead frame l.period.offset l.period.width)
  cksum := BitVec.ofNat 16 (memRead frame l.cksum.offset l.cksum.width)
  pm := l.pm.map fun f => BitVec.ofNat 32 (memRead frame f.offset f.width)

/-- `decode_hist()` (R90), through `LAYOUTS[LAYOUT]` (R88). -/
def decodeHist (s : State) : Run :=
  (checkLength .readHistogram s).andThen fun t =>
    match t.layout with
    | none => .stop (.noValue .layout)
    | some id =>
      match t.cfg.layoutOf id with
      | none => .stop .layoutUnknown
      | some l => .go { t with hist := some (histOf l t.rxbuf), histPresent := true }

/-- `decode_cfg()` (R91). -/
def decodeCfg (s : State) : Run :=
  (checkLength .readConfig s).andThen fun t =>
    .go { t with cfgr := some (configOf t.rxbuf), cfgPresent := true }

/-- `decode_ack(kind)` (R92). -/
def decodeAck (k : CmdKind) (s : State) : Run :=
  (checkLength k s).andThen fun t => .go { t with ack := ackFlag t.cfg t.rxbuf }

/-- `trim(raw)` (R94): `INFO_LO` and `INFO_HI`. -/
def trim (ws : List Byte) (raw : List Byte) : Nat × Nat :=
  let lo := (raw.takeWhile fun b => ws.contains b).length
  let back := (raw.reverse.takeWhile fun b => ws.contains b).length
  (lo, max lo (raw.length - back))

/-- `s[i:j]` (spec/00 section 5). -/
def slice (s : List Byte) (i j : Nat) : List Byte := (s.take j).drop i

/-- `classify(s)`: the layout id of the first signature equal to `s` (R95). -/
def classify (sigs : List Signature) (s : List Byte) : Option LayoutId :=
  (sigs.find? fun g => g.bytes == s).map Signature.layout

/-- `decode_info()` (R93). -/
def decodeInfo (s : State) : Run :=
  (checkLength .info s).andThen fun t =>
    let raw := t.rxbuf.take t.cfg.infoLen
    let (lo, hi) := trim t.cfg.ws raw
    match classify t.cfg.sigs (slice raw lo hi) with
    | none => raise (.firmware raw) t
    | some m => .go { t with info := some { raw := raw, lo := lo, hi := hi }, infoPresent := true, layout := some m }

end Sys2Proof.Machine
end

