-- ==== Sys2Proof/Machine/PowerOps.lean ====
section
/-! DEFINITION. The toggles and the power levels: LASER_ON, LASER_OFF, FAN_ON, FAN_OFF, SET_FAN_POWER, SET_LASER_POWER
(spec/43_operations.md R110 to R115). -/

namespace Sys2Proof.Machine

/-- Steps 3 to 5 of an operation with an ACK response (R110 to R115, R118, R119). -/
def ackCommand (k : CmdKind) (v : Operand) (s : State) : Run :=
  (sendCommand k v s).andThen (decodeAck k)

/-- LASER_ON (R110): `if ACK then LASER <- On`. -/
def execLaserOn (s : State) : Host.Outcome State Fault Refusal :=
  operation (Instr.op .laserOn)
    (fun t => (ackCommand .laserOn .none t).andThen fun u => .go { u with laser := if u.ack then .on else u.laser }) s

/-- LASER_OFF (R111): `if ACK then LASER <- Off`. -/
def execLaserOff (s : State) : Host.Outcome State Fault Refusal :=
  operation (Instr.op .laserOff)
    (fun t => (ackCommand .laserOff .none t).andThen fun u => .go { u with laser := if u.ack then .off else u.laser }) s

/-- FAN_ON (R112): `if ACK then FAN <- On`. -/
def execFanOn (s : State) : Host.Outcome State Fault Refusal :=
  operation (Instr.op .fanOn)
    (fun t => (ackCommand .fanOn .none t).andThen fun u => .go { u with fan := if u.ack then .on else u.fan }) s

/-- FAN_OFF (R113): `if ACK then FAN <- Off`. -/
def execFanOff (s : State) : Host.Outcome State Fault Refusal :=
  operation (Instr.op .fanOff)
    (fun t => (ackCommand .fanOff .none t).andThen fun u => .go { u with fan := if u.ack then .off else u.fan }) s

/-- SET_FAN_POWER (R114): `FAN`, `FAN_DAC` and `CFGR` are not touched. -/
def execSetFanPower (param : Int) (s : State) : Host.Outcome State Fault Refusal :=
  operation (Instr.op (.setFanPower param)) (ackCommand .setFanPower (.power param)) s

/-- SET_LASER_POWER (R115). -/
def execSetLaserPower (param : Int) (s : State) : Host.Outcome State Fault Refusal :=
  operation (Instr.op (.setLaserPower param)) (ackCommand .setLaserPower (.power param)) s

end Sys2Proof.Machine
end

