-- ==== Sys2Proof/Machine/ConfigOps.lean ====
section
/-! DEFINITION. READ_CONFIG, WRITE_CONFIG, SAVE_CONFIG and BINBOUND (spec/43_operations.md R117, R118, R119, R123). -/

namespace Sys2Proof.Machine

/-- READ_CONFIG (R117). -/
def execReadConfig (s : State) : Host.Outcome State Fault Refusal :=
  operation (Instr.op .readConfig) (fun t => (sendCommand .readConfig .none t).andThen decodeCfg) s

/-- WRITE_CONFIG (R118): `CFGR` and `CFG_PRESENT` are not touched. -/
def execWriteConfig (cfgw : ConfigW) (s : State) : Host.Outcome State Fault Refusal :=
  operation (Instr.op (.writeConfig cfgw)) (ackCommand .writeConfig (.config cfgw)) s

/-- SAVE_CONFIG (R119): no register records that a save happened. -/
def execSaveConfig (s : State) : Host.Outcome State Fault Refusal :=
  operation (Instr.op .saveConfig) (ackCommand .saveConfig .none) s

/-- `binbound(i) = BB[i]`, a direct array index (R96); the index has been checked, so there is a value. -/
def boundary (c : ConfigR) (i : Int) : Option U16 := c.bb[i.toNat]?

/-- BINBOUND (R123): presence, then the index check, then the lookup. -/
def execBinbound (idx : Int) (s : State) : Host.Outcome State Fault Refusal :=
  operation (Instr.op (.binbound idx))
    (fun t =>
      if t.cfgPresent = false then raise .notReady t
      else
        match checkIndex idx with
        | some e => raise e t
        | none =>
          match t.cfgr with
          | none => .stop (.noValue .cfgr)
          | some c => .go { t with bbout := boundary c idx }) s

end Sys2Proof.Machine
end

