-- ==== Sys2Proof/Machine/HistogramOps.lean ====
section
/-! DEFINITION. READ_HISTOGRAM and VALIDATE (spec/43_operations.md R116, R122). -/

namespace Sys2Proof.Machine

/-- READ_HISTOGRAM (R116): decode, then validate; a mismatch is reported with the record kept. -/
def execReadHistogram (s : State) : Host.Outcome State Fault Refusal :=
  operation (Instr.op .readHistogram)
    (fun t => ((sendCommand .readHistogram .none t).andThen decodeHist).andThen validateRecord) s

/-- VALIDATE (R122): allowed in every session state. -/
def execValidate (s : State) : Host.Outcome State Fault Refusal :=
  operation (Instr.op .validate)
    (fun t => if t.histPresent = false then raise .notReady t else validateRecord t) s

end Sys2Proof.Machine
end

