-- ==== Sys2Proof/Machine/SessionOps.lean ====
section
/-! DEFINITION. OPEN and CLOSE (spec/43_operations.md R109, R124). -/

namespace Sys2Proof.Machine

/-- Where a handshake that raised leaves `SESSION` (R109, R143): FirmwareFailed after a FirmwareError,
Uninitialized after a TransportError or FramingError. -/
def handshakeFailed (s : State) : State :=
  { s with session := if s.err = .firmware then .firmwareFailed else .uninitialized }

/-- OPEN (R109). -/
def execOpen (s : State) : Host.Outcome State Fault Refusal :=
  operation (Instr.op .openSession)
    (fun t =>
      (((sendCommand .info .none { t with session := .handshaking }).andThen decodeInfo).onRaise handshakeFailed).andThen
        fun u => .go { u with session := .ready, laser := .unknown, fan := .unknown }) s

/-- CLOSE (R124): the device is told nothing. -/
def execClose (s : State) : Host.Outcome State Fault Refusal :=
  operation (Instr.op .close) (fun t => .go { t with session := .closed }) s

end Sys2Proof.Machine
end

