-- ==== Sys2Proof/Machine/Dispatch.lean ====
section
/-! DEFINITION. One arm per operation. -/

namespace Sys2Proof.Machine

def exec (i : Instr) (s : State) : Host.Outcome State Fault Refusal :=
  match i with
  | .openSession => Sys2Proof.Machine.execOpen s
  | .laserOn => Sys2Proof.Machine.execLaserOn s
  | .laserOff => Sys2Proof.Machine.execLaserOff s
  | .fanOn => Sys2Proof.Machine.execFanOn s
  | .fanOff => Sys2Proof.Machine.execFanOff s
  | .setFanPower param => Sys2Proof.Machine.execSetFanPower param s
  | .setLaserPower param => Sys2Proof.Machine.execSetLaserPower param s
  | .readHistogram => Sys2Proof.Machine.execReadHistogram s
  | .readConfig => Sys2Proof.Machine.execReadConfig s
  | .writeConfig cfgw => Sys2Proof.Machine.execWriteConfig cfgw s
  | .saveConfig => Sys2Proof.Machine.execSaveConfig s
  | .validate => Sys2Proof.Machine.execValidate s
  | .binbound idx => Sys2Proof.Machine.execBinbound idx s
  | .close => Sys2Proof.Machine.execClose s

end Sys2Proof.Machine
end

