-- ==== Sys2Proof/Machine/Step.lean ====
section
/-! DEFINITION. One step: the host presents its next operation and the engine executes it whole (spec/00_scope.md R3). -/

namespace Sys2Proof.Machine

/-- One whole operation; with nothing presented, nothing happens (R3, R139). -/
def step (s : State) : Host.Outcome State Fault Refusal :=
  match nextOperation s with
  | .idle => .next s
  | .run i t => exec i t
  | .unassigned t => noSuchOperation t

/-- The state in which the very next step runs the operation of a table word (log 9). -/
def State.withFetchWord (s : State) (nbits w : Nat) : State := placeWord nbits w s

end Sys2Proof.Machine
end

