-- ==== Sys2Proof/Safety.lean ====
section
/-! DEFINITION. What holds of the engine between operations: the invariants the claims are stated with. Nothing here is used by
the machine. -/

namespace Sys2Proof.Machine

/-- Both buffers hold no value and every length and byte counter is 0 between operations (R10, R11, R22, R108). -/
def BuffersVoid (s : State) : Prop :=
  s.txbuf = [] ∧ s.txlen = 0 ∧ s.rxbuf = [] ∧ s.rxlen = 0 ∧ s.txi = 0 ∧ s.rxi = 0

/-- "The presence flags say which records hold values" (R14, R16); a boundary can have been looked up only
in a record that is present (R123). -/
def PresenceAgrees (s : State) : Prop :=
  s.histPresent = s.hist.isSome ∧ s.cfgPresent = s.cfgr.isSome ∧ s.infoPresent = s.info.isSome ∧
    (s.bbout.isSome = true → s.cfgPresent = true)

/-- A record's checksum holds: the true sum of its bins and `CKSUM` are congruent mod 65536 (R102 (d)). -/
def ChecksumHolds (h : Hist) : Prop :=
  (h.bin.toList.map BitVec.toNat).sum % 65536 = h.cksum.toNat

/-- `VALID` is the verdict on the record held, and 0 while none is held (R16, R24, R100, R158). -/
def ValidAgrees (s : State) : Prop :=
  s.valid = true ↔ ∃ h, s.hist = some h ∧ ChecksumHolds h

/-- The session state and what goes with it (R17, R18, R141, R142): Handshaking is never seen, `LAYOUT` is a
value in Ready and only in Ready and in a Closed reached from it, and a power sub-state is known only
where a handshake succeeded. -/
def SessionAgrees (s : State) : Prop :=
  s.session ≠ .handshaking ∧
  (s.session = .ready → s.layout.isSome = true ∧ s.infoPresent = true) ∧
  (s.layout.isSome = true → s.session = .ready ∨ s.session = .closed) ∧
  (s.laser ≠ .unknown ∨ s.fan ≠ .unknown → s.layout.isSome = true)

/-- The info record and `LAYOUT` come from one handshake: the trimmed string is a signature of `SIGS` and
`LAYOUT` the id paired with it (R15, R19, R93). -/
def InfoAgrees (s : State) : Prop :=
  s.layout.isSome = s.info.isSome ∧
  ∀ i, s.info = some i →
    i.raw.length = s.cfg.infoLen ∧ i.lo ≤ i.hi ∧ i.hi ≤ s.cfg.infoLen ∧
    (∀ b ∈ i.raw.take i.lo ++ i.raw.drop i.hi, b ∈ s.cfg.ws) ∧
    ∃ g ∈ s.cfg.sigs, g.bytes = (i.raw.take i.hi).drop i.lo ∧ s.layout = some g.layout

/-- The error registers describe one error: a context register is 0 unless `ERR` is the kind that records
it, and what a kind records fits its register (R20, R128, R135). -/
def ErrorAgrees (s : State) : Prop :=
  (s.err ≠ .framing → s.errExpected = 0 ∧ s.errActual = 0) ∧
  (s.err = .framing → s.errActual ≠ s.errExpected ∧ s.errActual < 2 ^ s.cfg.lenW ∧ s.errExpected < 2 ^ s.cfg.lenW) ∧
  (s.err ≠ .firmware → s.errSig = none ∧ s.errSiglen = 0) ∧
  (s.err = .firmware → ∃ sig, s.errSig = some sig ∧ sig.length = s.cfg.infoLen ∧ s.errSiglen = s.cfg.infoLen) ∧
  (s.err ≠ .range → s.errValue = 0 ∧ s.errField = 0) ∧
  (s.err = .range → s.errField.toNat ≤ 18)

/-- What an error says of the registers beside it (R131, R132, R136). -/
def ErrorMeans (s : State) : Prop :=
  (s.err = .firmware → s.session = .firmwareFailed) ∧
  (s.err = .checksum → s.hist.isSome = true ∧ s.valid = false) ∧
  (s.err = .closed → s.session = .closed)

/-- One command of the opcode table with a legal operand (R52, R53, R62 (a)): what the engine emits. -/
def IsCommandCall (c : Cfg) (b : BusCall) : Prop :=
  ∃ i k, Instr.kind i = some k ∧ checkOperand i.operand = none ∧
    b.out = c.command k i.operand ∧ b.settle = c.settle.get k ∧ b.expected = c.rlen k

/-- Every exchange so far was counted and sent a whole command with its own `SETTLE` and `RLEN` (R21, R106, R121). -/
def BusAgrees (s : State) : Prop :=
  s.xferCount = s.bus.length ∧ ∀ b ∈ s.bus, IsCommandCall s.cfg b

/-- The invariant every step keeps. -/
structure Inv (s : State) : Prop where
  buffers : BuffersVoid s
  presence : PresenceAgrees s
  valid : ValidAgrees s
  session : SessionAgrees s
  info : InfoAgrees s
  error : ErrorAgrees s
  means : ErrorMeans s
  bus : BusAgrees s

/-- An operation reaches its exchange: the gate lets it through and its operand is in range (R104, R105). -/
def Admitted (i : Instr) (s : State) : Prop :=
  checkOperand i.operand = none ∧
  ((i = .openSession ∧ s.session = .uninitialized) ∨
   (i ≠ .openSession ∧ i.kind.isSome = true ∧ s.session = .ready))

end Sys2Proof.Machine
end

