-- ==== Sys2Proof/Certificates/Slice0/Obligations.lean ====
section
/-! DEFINITION. The statements for the provers. The helpers under Sys2Proof.Expect write expected states and expected field values
out of the spec's rules, without the functions of the machine that compute them. A whole next state shows the model's own fields too:
`answers` and `bus` are its record of the transport (logs 6 and 7), `requests` of the host (log 5); no rule is cited for them. -/

namespace Sys2Proof.Expect

open Sys2Proof.Machine

/-- What every operation leaves besides its own effect: no error recorded (R134), buffers void (R108). -/
def quiet (s : State) : State :=
  { s with
    err := .none, errExpected := 0, errActual := 0, errSig := none, errSiglen := 0, errValue := 0, errField := 0
    txbuf := [], txlen := 0, rxbuf := [], rxlen := 0, txi := 0, rxi := 0 }

/-- An operation that raised before its exchange: the error and nothing else (R133, R136, R137). -/
def turnedAway (e : ErrCode) (s : State) : State := { quiet s with err := e }

/-- An operation that made its one exchange: counted, one answer taken, and the command bytes, `SETTLE(k)`
and `RLEN(k)` handed over (R106, R107, R121). -/
def sent (k : CmdKind) (v : Operand) (rest : List Answer) (s : State) : State :=
  { quiet s with
    xferCount := s.xferCount + 1
    answers := rest
    bus := { out := s.cfg.command k v, settle := s.cfg.settle.get k, expected := s.cfg.rlen k } :: s.bus }

/-- `RXLEN` for an answer `r`: its length, saturating (R11). -/
def counted (c : Cfg) (r : List Byte) : Nat := min r.length (2 ^ c.lenW - 1)

/-- The answer passes the length check: not shorter than expected, and under `STRICT_LEN` not longer (R83). -/
def Accepted (c : Cfg) (k : CmdKind) (r : List Byte) : Prop :=
  c.rlen k ≤ counted c r ∧ (c.strictLen = true → counted c r ≤ c.rlen k)

/-- The status byte of an acknowledge frame says success (R43, R92). -/
def acked (c : Cfg) (r : List Byte) : Bool := r[c.ackPos]? == some c.ackOk

/-- Byte `a` of a frame as a number. -/
def u8 (r : List Byte) (a : Nat) : Nat := (r.getD a 0).toNat

/-- `u16le` of the bytes at `a` (R36). -/
def le16 (r : List Byte) (a : Nat) : Nat := u8 r a + 256 * u8 r (a + 1)

/-- `u32le` of the bytes at `a` (R37). -/
def le32 (r : List Byte) (a : Nat) : Nat :=
  u8 r a + 256 * u8 r (a + 1) + 65536 * u8 r (a + 2) + 16777216 * u8 r (a + 3)

/-- The true sum of the bins (R99). -/
def binSum (bin : Vector U16 16) : Nat := (bin.toList.map BitVec.toNat).sum

/-- Every integer field of `CFGW` is in its range (R68). -/
def InRange (c : ConfigW) : Prop :=
  (∀ i : Fin 15, 0 ≤ c.bb[i] ∧ c.bb[i] ≤ 65535) ∧ 0 ≤ c.laserDac ∧ c.laserDac ≤ 255 ∧ 0 ≤ c.fanDac ∧ c.fanDac ≤ 255

/-- The operation raised none of the errors that precede the exchange (R121). -/
def reachedExchange (i : Instr) (t : State) : Nat :=
  if i.kind.isSome = true ∧ t.err ≠ .closed ∧ t.err ≠ .notReady ∧ t.err ≠ .range then 1 else 0

/-- `n` steps, counting the bus operations that raised neither ClosedSessionError, NotReadyError nor
RangeError (R121). -/
def tally : Nat → State → Option (Nat × State)
  | 0, s => some (0, s)
  | n + 1, s =>
    match step s with
    | .next t =>
      match tally n t with
      | some (m, u) =>
        match nextOperation s with
        | .run i _ => some (reachedExchange i t + m, u)
        | .idle => some (m, u)
        | .unassigned _ => some (m, u)
      | none => none
    | .fault _ => none
    | .refused _ => none

end Sys2Proof.Expect

open Sys2Proof Sys2Proof.Machine Sys2Proof.Expect

/-! ## The step, reset, and the invariant -/

/-- A step presents the host's oldest request in the operand registers and executes the operation they
select (R3, R9; the request list is the model's, log 5). -/
def Obligations.StepRunsThePresentedOperation : Prop :=
  ∀ (s : State) (r : Request) (rest : List Request) (i : Instr),
    s.requests = r :: rest → decodeRequest r = .instr i →
    step s = exec i { s with op := r.op, param := r.param, idx := r.idx, cfgw := r.cfgw, requests := rest }

/-- With nothing presented, nothing happens (R139; log 5). -/
def Obligations.StepWithoutRequestChangesNothing : Prop :=
  ∀ s : State, s.requests = [] → step s = .next s

/-- The values the spec gives for reset (R150), under every configuration. `OP`, `PARAM`, `IDX`, `CFGW` have none. -/
def Obligations.ResetLeavesTheSpecValues : Prop :=
  ∀ c : Cfg, ∀ s : State, s = State.resetWith c →
    s.session = .uninitialized ∧ s.laser = .unknown ∧ s.fan = .unknown ∧ s.layout = none ∧
    s.err = .none ∧ s.errExpected = 0 ∧ s.errActual = 0 ∧ s.errSig = none ∧ s.errSiglen = 0 ∧ s.errValue = 0 ∧
    s.errField = 0 ∧
    s.ack = false ∧ s.valid = false ∧ s.histPresent = false ∧ s.cfgPresent = false ∧ s.infoPresent = false ∧
    s.hist = none ∧ s.cfgr = none ∧ s.bbout = none ∧ s.info = none ∧
    s.txbuf = [] ∧ s.txlen = 0 ∧ s.rxbuf = [] ∧ s.rxlen = 0 ∧ s.txi = 0 ∧ s.rxi = 0 ∧
    s.xferCount = 0 ∧ s.cfg = c

/-- The invariant holds after reset, under every configuration. -/
def Obligations.ResetMeetsTheInvariant : Prop :=
  ∀ c : Cfg, Inv (State.resetWith c)

/-- Every step keeps the invariant, from every state that meets it. -/
def Obligations.EveryStepKeepsTheInvariant : Prop :=
  ∀ s t : State, Inv s → step s = .next t → Inv t

/-- From a state that meets the invariant a step ends in a next state whenever the transport answers
(R163), and the only thing that can stop it is a transport that does not (R107). -/
def Obligations.EveryStepEndsIfTheTransportAnswers : Prop :=
  ∀ s : State, Inv s →
    (s.answers ≠ [] → ∃ t, step s = .next t) ∧
    (∀ f, step s = .fault f → f = .transportSilent ∧ s.answers = []) ∧
    (∀ r, step s ≠ .refused r)

/-! ## Encodings -/

/-- Decoding the encoding of an operation gives it back, for every configuration and every operand in
range: no byte of a command is dropped (R52, R61). For BINBOUND, VALIDATE and CLOSE it rests on the model's
choice of log 11 (DEDUCED) and on no rule: R61 gives a local operation only its 4-bit OP, and that its
encoding also carries IDX is the model's. -/
def Obligations.EncodedOperationsDecodeBack : Prop :=
  ∀ (c : Cfg) (i : Instr), checkOperand i.operand = none → c.decode (c.encode i) = .instr i

/-- The other direction: bytes that decode to an operation are the command of that operation, so anything
else is rejected (R61, R62 (a)). -/
def Obligations.DecodedBytesAreTheCommandOfTheOperation : Prop :=
  ∀ (c : Cfg) (s : List Byte) (i : Instr), c.decodeCommand s = .instr i →
    checkOperand i.operand = none ∧ ∃ k, i.kind = some k ∧ s = c.command k i.operand

/-- A stream of commands reads back in one way: commands are prefix-decodable and determine kind and
operand (R7 (a), R54, R61). -/
def Obligations.CommandStreamsReadBackInOneWay : Prop :=
  ∀ (c : Cfg) (i j : Instr) (k l : CmdKind) (a b : List Byte),
    i.kind = some k → j.kind = some l → checkOperand i.operand = none → checkOperand j.operand = none →
    c.command k i.operand ++ a = c.command l j.operand ++ b → i = j ∧ a = b

/-- The default command bytes of R60, as numbers. A sanity statement. -/
def Obligations.DefaultCommandBytes : Prop :=
  ∀ pp : Fin 256,
    Cfg.defaults.command .info .none = [0x3F] ∧
    Cfg.defaults.command .laserOn .none = [0x03, 0x02] ∧
    Cfg.defaults.command .laserOff .none = [0x03, 0x03] ∧
    Cfg.defaults.command .fanOn .none = [0x03, 0x04] ∧
    Cfg.defaults.command .fanOff .none = [0x03, 0x05] ∧
    Cfg.defaults.command .setFanPower (.power pp.val) = [0x42, 0x00, BitVec.ofNat 8 pp.val] ∧
    Cfg.defaults.command .setLaserPower (.power pp.val) = [0x42, 0x01, BitVec.ofNat 8 pp.val] ∧
    Cfg.defaults.command .readHistogram .none = [0x30] ∧
    Cfg.defaults.command .readConfig .none = [0x3C] ∧
    (∀ w, Cfg.defaults.command .writeConfig (.config w) = 0x3A :: packConfig w) ∧
    Cfg.defaults.command .saveConfig .none = [0x43, 0x3F, 0x3C, 0x3F, 0x3C, 0x43]

/-- Words written out from R60 and R61 decode to the operation they stand for. A sanity statement. Two
clauses rest on the model's choices and on no rule: that the 8-bit word 0b1100 is BINBOUND with index 0
(log 11, DEDUCED), and that the operand of 0x4201 is 0 because the table gives it no bits (log 10, DEDUCED). -/
def Obligations.TableWordsDecode : Prop :=
  decodeTableWord 8 0x3F = some .openSession ∧ decodeTableWord 16 0x0302 = some .laserOn ∧
  decodeTableWord 16 0x0305 = some .fanOff ∧ decodeTableWord 16 0x4201 = some (.setLaserPower 0) ∧
  decodeTableWord 8 0x30 = some .readHistogram ∧ decodeTableWord 8 0x3C = some .readConfig ∧
  decodeTableWord 48 0x433F3C3F3C43 = some .saveConfig ∧ decodeTableWord 8 0b1100 = some (.binbound 0) ∧
  decodeTableWord 8 14 = none ∧ decodeTableWord 16 0x0306 = none

/-- `pack_config` puts every field at its offset, and a config frame that begins with the image of a record
gives every field of the record back (R69). -/
def Obligations.ConfigImageReadsBack : Prop :=
  ∀ (c : ConfigW), InRange c → ∀ tail : List Byte,
    (packConfig c).length = 232 ∧
    (∀ i : Fin 15, (le16 (packConfig c) (2 * i) : Int) = c.bb[i]) ∧
    (∀ i : Fin 16, le32 (packConfig c) (30 + 4 * i) = c.bpv[i].toNat) ∧
    (∀ i : Fin 16, le32 (packConfig c) (94 + 4 * i) = c.bpd[i].toNat) ∧
    (∀ i : Fin 16, le32 (packConfig c) (158 + 4 * i) = c.bsvw[i].toNat) ∧
    le32 (packConfig c) 222 = c.gsc.toNat ∧ le32 (packConfig c) 226 = c.sfr.toNat ∧
    (u8 (packConfig c) 230 : Int) = c.laserDac ∧ (u8 (packConfig c) 231 : Int) = c.fanDac ∧
    (configOf (packConfig c ++ tail)).widen = c

/-! ## Byte order and bounds -/

/-- `MemRead(addr, n)` for `n` in 1, 2, 4 (R38). -/
def Obligations.MemReadIsLittleEndian : Prop :=
  ∀ (r : List Byte) (a : Nat),
    (a + 1 ≤ r.length → memRead r a 1 = u8 r a) ∧
    (a + 2 ≤ r.length → memRead r a 2 = le16 r a) ∧
    (a + 4 ≤ r.length → memRead r a 4 = le32 r a)

/-- `MemWrite` writes its bytes least significant first, touches no other byte, and `MemRead` gives the
value back (R39). -/
def Obligations.MemWriteThenMemRead : Prop :=
  ∀ (b : List Byte) (a n v : Nat), n = 1 ∨ n = 2 ∨ n = 4 → v < 256 ^ n → a + n ≤ b.length →
    memRead (memWrite b a n v) a n = v ∧
    (memWrite b a n v).length = b.length ∧
    (∀ i, i < n → u8 (memWrite b a n v) (a + i) = v / 256 ^ i % 256) ∧
    (∀ j, j < a ∨ a + n ≤ j → (memWrite b a n v)[j]? = b[j]?)

/-- Every field of every layout lies inside the frame the length check lets through, and that frame inside
the receive buffer (R7 (b), R32, R45). -/
def Obligations.LayoutFieldsLieInsideTheFrame : Prop :=
  ∀ (c : Cfg) (id : LayoutId) (l : Layout), c.layoutOf id = some l →
    (∀ f ∈ l.fields, f.1.width = f.2 ∧ f.1.offset + f.1.width ≤ c.histLen) ∧
    c.histLen ≤ c.rxMax ∧ c.cfgLen ≤ c.rxMax ∧ 232 ≤ c.cfgLen ∧ c.infoLen ≤ c.rxMax ∧
    c.ackPos < c.ackLen ∧ c.ackLen ≤ c.rxMax

/-! ## Operations that complete: the next state, whole -/

/-- The four toggles (R110 to R113): the command is sent whatever the power sub-state; `ACK` is the device's
answer, and the sub-state moves only when acknowledged; nothing else changes. -/
def Obligations.TogglesComplete : Prop :=
  ∀ (s : State) (r : List Byte) (rest : List Answer), s.session = .ready → s.answers = .bytes r :: rest →
    (Accepted s.cfg .laserOn r → exec .laserOn s = .next
      { sent .laserOn .none rest s with
        ack := acked s.cfg r, laser := if acked s.cfg r then .on else s.laser }) ∧
    (Accepted s.cfg .laserOff r → exec .laserOff s = .next
      { sent .laserOff .none rest s with
        ack := acked s.cfg r, laser := if acked s.cfg r then .off else s.laser }) ∧
    (Accepted s.cfg .fanOn r → exec .fanOn s = .next
      { sent .fanOn .none rest s with
        ack := acked s.cfg r, fan := if acked s.cfg r then .on else s.fan }) ∧
    (Accepted s.cfg .fanOff r → exec .fanOff s = .next
      { sent .fanOff .none rest s with
        ack := acked s.cfg r, fan := if acked s.cfg r then .off else s.fan })

/-- SET_FAN_POWER and SET_LASER_POWER on a level in 0 to 255 (R114, R115): the level is the last byte sent;
only `ACK` and what every exchange writes change. -/
def Obligations.PowerCommandsComplete : Prop :=
  ∀ (s : State) (r : List Byte) (rest : List Answer) (p : Int), s.session = .ready → s.answers = .bytes r :: rest →
    0 ≤ p → p ≤ 255 →
    (Accepted s.cfg .setFanPower r → exec (.setFanPower p) s = .next
      { sent .setFanPower (.power p) rest s with ack := acked s.cfg r }) ∧
    (Accepted s.cfg .setLaserPower r → exec (.setLaserPower p) s = .next
      { sent .setLaserPower (.power p) rest s with ack := acked s.cfg r }) ∧
    s.cfg.command .setFanPower (.power p) = s.cfg.lead .setFanPower ++ [BitVec.ofInt 8 p] ∧
    s.cfg.command .setLaserPower (.power p) = s.cfg.lead .setLaserPower ++ [BitVec.ofInt 8 p]

/-- WRITE_CONFIG on a record in range and SAVE_CONFIG (R118, R119): only `ACK` and what every exchange writes
change; `CFGR` and `CFG_PRESENT` do not. -/
def Obligations.WriteAndSaveConfigComplete : Prop :=
  ∀ (s : State) (r : List Byte) (rest : List Answer) (c : ConfigW), s.session = .ready → s.answers = .bytes r :: rest →
    (InRange c → Accepted s.cfg .writeConfig r → exec (.writeConfig c) s = .next
      { sent .writeConfig (.config c) rest s with ack := acked s.cfg r }) ∧
    (Accepted s.cfg .saveConfig r → exec .saveConfig s = .next
      { sent .saveConfig .none rest s with ack := acked s.cfg r })

/-- READ_HISTOGRAM (R116): on an accepted frame the whole record, `HIST_PRESENT`, `VALID` and the error code
are written, and nothing else of the result registers; a wrong checksum is delivered with the data. -/
def Obligations.ReadHistogramCompletes : Prop :=
  ∀ (s : State) (r : List Byte) (rest : List Answer) (id : LayoutId) (l : Layout),
    s.session = .ready → s.layout = some id → s.cfg.layoutOf id = some l →
    s.answers = .bytes r :: rest → Accepted s.cfg .readHistogram r →
    (ChecksumHolds (histOf l r) → exec .readHistogram s = .next
      { sent .readHistogram .none rest s with
        hist := some (histOf l r), histPresent := true, valid := true }) ∧
    (¬ ChecksumHolds (histOf l r) → exec .readHistogram s = .next
      { sent .readHistogram .none rest s with
        hist := some (histOf l r), histPresent := true, valid := false, err := .checksum })

/-- The histogram frame field by field under `LAYOUT_V18_2` (R41, R90). -/
def Obligations.HistogramFrameFields : Prop :=
  ∀ (s : State) (r : List Byte) (rest : List Answer), s.session = .ready → s.layout = some .v18_2 →
    s.answers = .bytes r :: rest → Accepted s.cfg .readHistogram r →
    ∃ t h, exec .readHistogram s = .next t ∧ t.hist = some h ∧ t.histPresent = true ∧
      (∀ i : Fin 16, h.bin[i].toNat = le16 r (2 * i)) ∧
      (∀ j : Fin 4, h.mtof[j].toNat = le32 r (32 + 4 * j)) ∧
      h.temp.toNat = le32 r 48 ∧ h.pres.toNat = u8 r 52 ∧ h.period.toNat = u8 r 53 ∧ h.cksum.toNat = le16 r 54 ∧
      (∀ k : Fin 3, h.pm[k].toNat = le32 r (56 + 4 * k))

/-- READ_CONFIG (R117): the whole record from the one frame, field by field (R42, R91), and `CFG_PRESENT`;
`VALID` and the histogram are not touched. -/
def Obligations.ReadConfigCompletes : Prop :=
  ∀ (s : State) (r : List Byte) (rest : List Answer), s.session = .ready →
    s.answers = .bytes r :: rest → Accepted s.cfg .readConfig r →
    ∃ c : ConfigR,
      exec .readConfig s = .next { sent .readConfig .none rest s with cfgr := some c, cfgPresent := true } ∧
      (∀ i : Fin 15, c.bb[i].toNat = le16 r (2 * i)) ∧
      (∀ i : Fin 16, c.bpv[i].toNat = le32 r (30 + 4 * i)) ∧
      (∀ i : Fin 16, c.bpd[i].toNat = le32 r (94 + 4 * i)) ∧
      (∀ i : Fin 16, c.bsvw[i].toNat = le32 r (158 + 4 * i)) ∧
      c.gsc.toNat = le32 r 222 ∧ c.sfr.toNat = le32 r 226 ∧
      c.laserDac.toNat = u8 r 230 ∧ c.fanDac.toNat = u8 r 231

/-- OPEN on a frame whose content between whitespace is a known signature (R93, R109, R142): the session is
Ready, `LAYOUT` is the id paired with the signature, the power sub-state is Unknown, and the info record
holds the frame and the trimmed range. -/
def Obligations.OpenCompletesOnAKnownSignature : Prop :=
  ∀ (s : State) (r pre post : List Byte) (rest : List Answer) (g : Signature),
    s.session = .uninitialized → s.answers = .bytes r :: rest → Accepted s.cfg .info r →
    g ∈ s.cfg.sigs → r.take s.cfg.infoLen = pre ++ g.bytes ++ post → (∀ b ∈ pre ++ post, b ∈ s.cfg.ws) →
    exec .openSession s = .next
      { sent .info .none rest s with
        session := .ready, laser := .unknown, fan := .unknown, layout := some g.layout, infoPresent := true
        info := some { raw := r.take s.cfg.infoLen, lo := pre.length, hi := pre.length + g.bytes.length } }

/-- VALIDATE on a record that is present (R100, R122), in every session state: `VALID` and the error code are
the verdict, and nothing else changes. -/
def Obligations.ValidateCompletes : Prop :=
  ∀ (s : State) (h : Hist), s.histPresent = true → s.hist = some h →
    (ChecksumHolds h → exec .validate s = .next { quiet s with valid := true }) ∧
    (¬ ChecksumHolds h → exec .validate s = .next { quiet s with valid := false, err := .checksum })

/-- BINBOUND on an index 0 to 14 with a configuration present (R96, R123), in every session state. -/
def Obligations.BinboundCompletes : Prop :=
  ∀ (s : State) (c : ConfigR) (i : Fin 15), s.cfgPresent = true → s.cfgr = some c →
    exec (.binbound i.val) s = .next { quiet s with bbout := some c.bb[i] }

/-- CLOSE in every state (R124): the session is Closed, no error, no exchange, everything else kept. -/
def Obligations.CloseCompletes : Prop :=
  ∀ s : State, exec .close s = .next { quiet s with session := .closed }

/-! ## Errors -/

/-- ClosedSessionError (R136): OPEN and the ten bus operations, whatever their operand. -/
def Obligations.ClosedSessionRefusesBusOperations : Prop :=
  ∀ (i : Instr) (s : State), i.op.toNat ≤ 10 → s.session = .closed →
    exec i s = .next (turnedAway .closed s)

/-- NotReadyError (R137), whatever the operand: every case the rule lists. -/
def Obligations.NotReadyOperationsChangeNothing : Prop :=
  (∀ s : State, s.session = .ready ∨ s.session = .firmwareFailed →
    exec .openSession s = .next (turnedAway .notReady s)) ∧
  (∀ (i : Instr) (s : State), 1 ≤ i.op.toNat → i.op.toNat ≤ 10 →
    s.session = .uninitialized ∨ s.session = .firmwareFailed → exec i s = .next (turnedAway .notReady s)) ∧
  (∀ s : State, s.histPresent = false → exec .validate s = .next (turnedAway .notReady s)) ∧
  (∀ (s : State) (i : Int), s.cfgPresent = false → exec (.binbound i) s = .next (turnedAway .notReady s)) ∧
  (∀ (s : State) (r : Request) (rest : List Request), s.requests = r :: rest → r.op = 14 ∨ r.op = 15 →
    step s = .next (turnedAway .notReady
      { s with op := r.op, param := r.param, idx := r.idx, cfgw := r.cfgw, requests := rest }))

/-- `check_power` (R67): the comparison is on the signed operand as presented; a bad level sends nothing. -/
def Obligations.PowerLevelOutOfRangeSendsNothing : Prop :=
  ∀ (s : State) (p : Int), s.session = .ready →
    (p < 0 ∨ 255 < p →
      exec (.setFanPower p) s = .next { turnedAway .range s with errField := 0, errValue := p } ∧
      exec (.setLaserPower p) s = .next { turnedAway .range s with errField := 0, errValue := p }) ∧
    (0 ≤ p → p ≤ 255 → checkOperand (.power p) = none)

/-- `check_config` (R68): the first field out of range, in the order BB[0..14], LASER_DAC, FAN_DAC, is
reported and nothing is sent; a record in range passes. -/
def Obligations.ConfigOutOfRangeReportsTheFirstField : Prop :=
  ∀ (s : State) (c : ConfigW), s.session = .ready →
    (∀ i : Fin 15, (∀ j : Fin 15, j < i → 0 ≤ c.bb[j] ∧ c.bb[j] ≤ 65535) → c.bb[i] < 0 ∨ 65535 < c.bb[i] →
      exec (.writeConfig c) s = .next
        { turnedAway .range s with errField := BitVec.ofNat 6 (2 + i), errValue := c.bb[i] }) ∧
    ((∀ j : Fin 15, 0 ≤ c.bb[j] ∧ c.bb[j] ≤ 65535) → c.laserDac < 0 ∨ 255 < c.laserDac →
      exec (.writeConfig c) s = .next { turnedAway .range s with errField := 17, errValue := c.laserDac }) ∧
    ((∀ j : Fin 15, 0 ≤ c.bb[j] ∧ c.bb[j] ≤ 65535) → 0 ≤ c.laserDac → c.laserDac ≤ 255 →
      c.fanDac < 0 ∨ 255 < c.fanDac →
      exec (.writeConfig c) s = .next { turnedAway .range s with errField := 18, errValue := c.fanDac }) ∧
    (InRange c → checkOperand (.config c) = none)

/-- BINBOUND outside 0 to 14 (R123): RangeError on `IDX`, `BBOUT` unchanged. -/
def Obligations.BinboundOutOfRangeKeepsBbout : Prop :=
  ∀ (s : State) (i : Int), s.cfgPresent = true → i < 0 ∨ 14 < i →
    exec (.binbound i) s = .next { turnedAway .range s with errField := 1, errValue := i }

/-- TransportError (R129), every bus operation: the exchange is counted, no result register is written, `ACK`
is 0 if the command expected one, and the session is what it was (Uninitialized for OPEN). -/
def Obligations.TransportFailureKeepsTheSession : Prop :=
  ∀ (i : Instr) (k : CmdKind) (s : State) (rest : List Answer),
    i.kind = some k → Admitted i s → s.answers = .fail :: rest →
    exec i s = .next
      { sent k i.operand rest s with err := .transport, ack := if k.response = .ack then false else s.ack }

/-- FramingError (R130), every bus operation: expected and received length are recorded and nothing is decoded. -/
def Obligations.BadFrameLengthDecodesNothing : Prop :=
  ∀ (i : Instr) (k : CmdKind) (s : State) (r : List Byte) (rest : List Answer),
    i.kind = some k → Admitted i s → s.answers = .bytes r :: rest → ¬ Accepted s.cfg k r →
    exec i s = .next
      { sent k i.operand rest s with
        err := .framing, errExpected := s.cfg.rlen k, errActual := counted s.cfg r
        ack := if k.response = .ack then false else s.ack }

/-- FirmwareError (R131): a frame that is long enough and whose content between whitespace is no signature. -/
def Obligations.UnknownSignatureFailsTheSession : Prop :=
  ∀ (s : State) (r : List Byte) (rest : List Answer),
    s.session = .uninitialized → s.answers = .bytes r :: rest → Accepted s.cfg .info r →
    (∀ g ∈ s.cfg.sigs, ∀ pre post : List Byte, r.take s.cfg.infoLen = pre ++ g.bytes ++ post →
      ∃ b ∈ pre ++ post, b ∉ s.cfg.ws) →
    exec .openSession s = .next
      { sent .info .none rest s with
        err := .firmware, errSig := some (r.take s.cfg.infoLen), errSiglen := s.cfg.infoLen
        session := .firmwareFailed }

/-- ChecksumMismatch (R132): it comes from a READ_HISTOGRAM or VALIDATE and from nothing else, on a sum that
differs, with `VALID` 0, the record in place and the session unchanged. -/
def Obligations.ChecksumMismatchKeepsTheData : Prop :=
  ∀ (i : Instr) (s t : State), exec i s = .next t → t.err = .checksum →
    (i = .readHistogram ∨ i = .validate) ∧ t.valid = false ∧ t.session = s.session ∧ t.histPresent = true ∧
    ∃ h, t.hist = some h ∧ ¬ ChecksumHolds h

/-- After READ_HISTOGRAM or VALIDATE that decoded or held a record: `VALID`, the sum and the error code agree
(R116, R122; D38). -/
def Obligations.ValidityIsTheVerdictOnTheRecord : Prop :=
  ∀ (i : Instr) (s t : State), i = .readHistogram ∨ i = .validate → exec i s = .next t →
    t.err = .none ∨ t.err = .checksum →
    ∃ h, t.hist = some h ∧ (t.valid = true ↔ ChecksumHolds h) ∧ (t.valid = true ↔ t.err = .none)

/-- A transport that never answers leaves the operation unfinished: every operation that reaches its exchange
stops there (R107, R163; the list of answers is the model's, log 6). -/
def Obligations.SilentTransportStopsTheExchange : Prop :=
  ∀ (i : Instr) (s : State), Admitted i s → i.kind.isSome = true → s.answers = [] →
    exec i s = .fault .transportSilent

/-- A read of a record that holds no value stops by name: "a fault of the model, rule R14" (00_scope.md
section 5). A layout that `LAYOUTS` does not know stops too, by the model's choice (log 13, DEDUCED) and by
no rule. All of it concerns states no run reaches: none of them meets the invariant. -/
def Obligations.ReadsWithoutValueStop : Prop :=
  (∀ s : State, s.histPresent = true → s.hist = none → exec .validate s = .fault (.noValue .hist)) ∧
  (∀ (s : State) (i : Fin 15), s.cfgPresent = true → s.cfgr = none → exec (.binbound i.val) s = .fault (.noValue .cfgr)) ∧
  (∀ (s : State) (r : List Byte) (rest : List Answer), s.session = .ready → s.answers = .bytes r :: rest →
    Accepted s.cfg .readHistogram r →
    (s.layout = none → exec .readHistogram s = .fault (.noValue .layout)) ∧
    (∀ id, s.layout = some id → s.cfg.layoutOf id = none → exec .readHistogram s = .fault .layoutUnknown))

/-- The error registers describe the last operation only (R134): what they held before matters to nothing,
and a context register is 0 unless the error is of its kind. -/
def Obligations.ErrorRegistersDescribeTheLastOperation : Prop :=
  ∀ (i : Instr) (s : State),
    (∀ (e : ErrCode) (x a n : Nat) (g : Option (List Byte)) (v : Int) (f : BitVec 6),
      exec i { s with
        err := e, errExpected := x, errActual := a, errSig := g, errSiglen := n, errValue := v, errField := f } =
      exec i s) ∧
    (∀ t, exec i s = .next t →
      (t.err ≠ .framing → t.errExpected = 0 ∧ t.errActual = 0) ∧
      (t.err ≠ .firmware → t.errSig = none ∧ t.errSiglen = 0) ∧
      (t.err ≠ .range → t.errValue = 0 ∧ t.errField = 0))

/-! ## Rules over all operations -/

/-- Who writes what: each register group is unchanged by every operation that is not one of its writers
(10_state.md section 9, with R109 for the power sub-state, log 18), and no operation changes `CFG` (R152) or an
operand register (R9). -/
def Obligations.OnlyTheWritersWrite : Prop :=
  ∀ (i : Instr) (s t : State), exec i s = .next t →
    (i ≠ .readHistogram → t.hist = s.hist ∧ t.histPresent = s.histPresent) ∧
    (i ≠ .readHistogram → i ≠ .validate → t.valid = s.valid) ∧
    (i ≠ .readConfig → t.cfgr = s.cfgr ∧ t.cfgPresent = s.cfgPresent) ∧
    ((∀ x, i ≠ .binbound x) → t.bbout = s.bbout) ∧
    (i ≠ .openSession → t.info = s.info ∧ t.infoPresent = s.infoPresent ∧ t.layout = s.layout) ∧
    ((∀ k, i.kind = some k → k.response ≠ .ack) → t.ack = s.ack) ∧
    (i ≠ .laserOn → i ≠ .laserOff → i ≠ .openSession → t.laser = s.laser) ∧
    (i ≠ .fanOn → i ≠ .fanOff → i ≠ .openSession → t.fan = s.fan) ∧
    (i ≠ .openSession → i ≠ .close → t.session = s.session) ∧
    (i.kind = none → t.xferCount = s.xferCount ∧ t.bus = s.bus ∧ t.answers = s.answers) ∧
    t.op = s.op ∧ t.param = s.param ∧ t.idx = s.idx ∧ t.cfgw = s.cfgw ∧ t.cfg = s.cfg ∧ t.requests = s.requests ∧
    t.txbuf = [] ∧ t.txlen = 0 ∧ t.rxbuf = [] ∧ t.rxlen = 0 ∧ t.txi = 0 ∧ t.rxi = 0

/-- An operation that ends in an error other than ChecksumMismatch leaves every result register, presence
flag, `VALID`, `LAYOUT` and the power sub-state as they were (R129, R130, R131, R133, R136, R137, R158). -/
def Obligations.FailedOperationsKeepTheResults : Prop :=
  ∀ (i : Instr) (s t : State), exec i s = .next t → t.err ≠ .none → t.err ≠ .checksum →
    t.hist = s.hist ∧ t.histPresent = s.histPresent ∧ t.valid = s.valid ∧ t.cfgr = s.cfgr ∧
    t.cfgPresent = s.cfgPresent ∧ t.bbout = s.bbout ∧ t.info = s.info ∧ t.infoPresent = s.infoPresent ∧
    t.layout = s.layout ∧ t.laser = s.laser ∧ t.fan = s.fan

/-- Every bus operation that gets past the gate and the range check starts exactly one exchange, and over any
sequence of operations `XFER_COUNT` grows by the number of them that did (R121). -/
def Obligations.OneExchangePerBusOperation : Prop :=
  (∀ (i : Instr) (s t : State), exec i s = .next t →
    t.xferCount = s.xferCount + reachedExchange i t ∧ t.bus.length = s.bus.length + reachedExchange i t) ∧
  (∀ (n m : Nat) (s t : State), tally n s = some (m, t) → t.xferCount = s.xferCount + m)

/-- `ACK` after an operation with an ACK response (R120). -/
def Obligations.AckIsTheDevicesAnswer : Prop :=
  ∀ (i : Instr) (k : CmdKind) (s t : State), i.kind = some k → k.response = .ack → exec i s = .next t →
    (t.err = .none → ∃ r rest, s.answers = .bytes r :: rest ∧ t.ack = acked s.cfg r) ∧
    (t.err = .transport ∨ t.err = .framing → t.ack = false) ∧
    (t.err = .closed ∨ t.err = .notReady ∨ t.err = .range → t.ack = s.ack)

/-- The session states (R141 to R145): Closed is left by no operation, FirmwareFailed only by CLOSE, Ready is
entered only by a successful OPEN from Uninitialized and left only by CLOSE. -/
def Obligations.SessionTransitions : Prop :=
  ∀ (i : Instr) (s t : State), exec i s = .next t →
    (s.session = .closed → t.session = .closed) ∧
    (s.session = .firmwareFailed → t.session = .firmwareFailed ∨ (i = .close ∧ t.session = .closed)) ∧
    (s.session = .ready → t.session = .ready ∨ (i = .close ∧ t.session = .closed)) ∧
    (t.session = .ready → s.session = .ready ∨
      (i = .openSession ∧ s.session = .uninitialized ∧ t.err = .none ∧ t.layout.isSome = true ∧
        t.laser = .unknown ∧ t.fan = .unknown)) ∧
    (t.session = .firmwareFailed → s.session = .firmwareFailed ∨
      (i = .openSession ∧ s.session = .uninitialized ∧ t.err = .firmware)) ∧
    (t.session = .closed → s.session = .closed ∨ i = .close) ∧
    (t.session = .handshaking → s.session = .handshaking)

/-- The operand registers matter only through the operation they present (R9; 93 U17): with other contents
the same operation ends the same, and they keep what the host wrote. -/
def Obligations.OperandRegistersAreOnlyReadAtTheStart : Prop :=
  ∀ (i : Instr) (s t : State) (o : BitVec 4) (p x : Int) (c : ConfigW), exec i s = .next t →
    exec i { s with op := o, param := p, idx := x, cfgw := c } = .next { t with op := o, param := p, idx := x, cfgw := c }

/-- Bytes past the expected length are ignored when `STRICT_LEN` is false (R33, R84). -/
def Obligations.SurplusBytesAreIgnored : Prop :=
  ∀ (i : Instr) (k : CmdKind) (s : State) (r tail : List Byte) (rest : List Answer),
    i.kind = some k → Admitted i s → s.cfg.strictLen = false → s.cfg.rlen k ≤ r.length →
    exec i { s with answers := .bytes (r ++ tail) :: rest } = exec i { s with answers := .bytes r :: rest }

/-- A toggle is never suppressed: LASER_ON twice makes two exchanges with the same bytes (R35, R161). -/
def Obligations.RepeatedToggleIsSentAgain : Prop :=
  ∀ (s : State) (a b : List Byte) (rest : List Answer), s.session = .ready →
    s.answers = .bytes a :: .bytes b :: rest → Accepted s.cfg .laserOn a → Accepted s.cfg .laserOn b →
    ∃ t u, exec .laserOn s = .next t ∧ exec .laserOn t = .next u ∧
      t.ack = acked s.cfg a ∧ u.ack = acked s.cfg b ∧ u.xferCount = s.xferCount + 2 ∧
      ∃ call, call.out = s.cfg.lead .laserOn ∧ u.bus = call :: call :: s.bus

/-! ## The validator and the trimmer as functions -/

/-- `sum16` (R99): the true sum mod 65536, at most 1048560; a 16-bit accumulator that drops carries gives the
same; the order of the additions does not matter. -/
def Obligations.Sum16IsTheSumModulo65536 : Prop :=
  ∀ bin : Vector U16 16,
    (sum16 bin).toNat = binSum bin % 65536 ∧ binSum bin ≤ 1048560 ∧
    sum16 bin = bin.toList.foldl (· + ·) 0 ∧
    ∀ other : Vector U16 16, bin.toList.Perm other.toList → sum16 other = sum16 bin

/-- `trim` (R94): `lo` is the least index of a byte not in `WS` (the length if there is none), `hi` one more
than the greatest, or `lo`; the default `WS` is the six ASCII whitespace codes, without the zero byte. -/
def Obligations.TrimFindsTheEnds : Prop :=
  ∀ (ws raw : List Byte), ∃ lo hi, trim ws raw = (lo, hi) ∧ lo ≤ hi ∧ hi ≤ raw.length ∧
    (∀ i b, i < lo → raw[i]? = some b → b ∈ ws) ∧
    (∀ b, raw[lo]? = some b → b ∉ ws) ∧
    (∀ i b, hi ≤ i → raw[i]? = some b → b ∈ ws) ∧
    (lo < hi → ∃ b, raw[hi - 1]? = some b ∧ b ∉ ws) ∧
    ((∀ b ∈ raw, b ∈ ws) → lo = raw.length ∧ hi = raw.length) ∧
    Cfg.defaults.ws = [0x09, 0x0A, 0x0B, 0x0C, 0x0D, 0x20] ∧ (0x00 : Byte) ∉ Cfg.defaults.ws
end

