-- ==== Sys2Proof/Laws/Bytes.lean ====
section
/-! SUPPORT. Little-endian bytes and values are inverse, and where a read of a concatenation lands. -/

namespace Sys2Proof

@[simp] theorem length_leBytes (n v : Nat) : (leBytes n v).length = n := by
  induction n generalizing v with
  | zero => rfl
  | succ n ih => simp [leBytes, ih]

/-- The value of the bytes of `v` is `v` modulo their range. -/
theorem leValue_leBytes (n v : Nat) : leValue (leBytes n v) = v % 256 ^ n := by
  induction n generalizing v with
  | zero => simp [leBytes, leValue, Nat.mod_one]
  | succ n ih =>
    have e : 256 ^ (n + 1) = 256 * 256 ^ n := by ring
    rw [leBytes, leValue, ih, BitVec.toNat_ofNat, e, Nat.mod_mul]

/-- Bytes of a value fit its width. -/
theorem leValue_lt (l : List Byte) : leValue l < 256 ^ l.length := by
  induction l with
  | nil => simp [leValue]
  | cons b rest ih =>
    have := b.isLt
    simp only [leValue, List.length_cons, pow_succ]
    omega

/-- The bytes of the value of bytes are those bytes. -/
theorem leBytes_leValue (l : List Byte) : leBytes l.length (leValue l) = l := by
  induction l with
  | nil => rfl
  | cons b rest ih =>
    have h := b.isLt
    have hd : (b.toNat + 256 * leValue rest) / 256 = leValue rest := by omega
    simp only [List.length_cons, leBytes, leValue, hd, ih, List.cons.injEq, and_true]
    apply BitVec.eq_of_toNat_eq
    rw [BitVec.toNat_ofNat]
    omega

theorem leValue_append_zero (l m : List Byte) (h : ∀ b ∈ m, b = 0) : leValue (l ++ m) = leValue l := by
  induction l with
  | nil =>
    induction m with
    | nil => rfl
    | cons b rest ih =>
      have hb : b = 0 := h b (by simp)
      have := ih fun x hx => h x (by simp [hx])
      simp only [List.nil_append] at this ⊢
      simp [leValue, hb, this]
  | cons b rest ih => simp [leValue, ih]

/-- A read past `a` bytes of a concatenation is a read of what follows them. -/
theorem memRead_append_right (pre f : List Byte) (a n : Nat) :
    memRead (pre ++ f) (pre.length + a) n = memRead f a n := by
  simp [memRead, List.drop_append, List.drop_eq_nil_of_le]

/-- A read that lies inside the first part of a concatenation. -/
theorem memRead_append_left (f tail : List Byte) (a n : Nat) (h : a + n ≤ f.length) :
    memRead (f ++ tail) a n = memRead f a n := by
  unfold memRead
  rw [List.drop_append_of_le_length (by omega), List.take_append_of_le_length (by simp; omega)]

/-- A read that lies inside what `take` keeps. -/
theorem memRead_take (f : List Byte) (m a n : Nat) (h : a + n ≤ m) : memRead (f.take m) a n = memRead f a n := by
  unfold memRead
  rw [List.drop_take, List.take_take]
  congr 2
  omega

/-- A read of a field just written. -/
theorem memRead_leBytes (n v : Nat) (tail : List Byte) (h : v < 256 ^ n) : memRead (leBytes n v ++ tail) 0 n = v := by
  unfold memRead
  have := List.take_left (l₁ := leBytes n v) (l₂ := tail)
  rw [length_leBytes] at this
  rw [List.drop_zero, this, leValue_leBytes, Nat.mod_eq_of_lt h]

theorem memRead_lt (f : List Byte) (a n : Nat) : memRead f a n < 256 ^ n := by
  unfold memRead
  refine lt_of_lt_of_le (leValue_lt _) (Nat.pow_le_pow_right (by norm_num) ?_)
  simp

/-- Element `i` of a run of fields of one width, wherever the run begins. -/
theorem memRead_run {α : Type} (g : α → List Byte) (w : Nat) (hg : ∀ x, (g x).length = w) (l : List α)
    (pre tail : List Byte) (i : Nat) (h : i < l.length) :
    memRead (pre ++ (l.flatMap g ++ tail)) (pre.length + w * i) w = leValue (g l[i]) := by
  rw [memRead_append_right]
  induction l generalizing i with
  | nil => simp at h
  | cons x rest ih =>
    cases i with
    | zero =>
      unfold memRead
      have := List.take_left (l₁ := g x) (l₂ := rest.flatMap g ++ tail)
      rw [hg x] at this
      simp only [Nat.mul_zero, List.drop_zero, List.flatMap_cons, List.append_assoc, this]
      rfl
    | succ j =>
      have e : w * (j + 1) = (g x).length + w * j := by rw [hg x]; ring
      rw [List.flatMap_cons, List.append_assoc, e, memRead_append_right]
      exact ih j (by simpa using h)

theorem length_flatMap_const {α : Type} (g : α → List Byte) (w : Nat) (hg : ∀ x, (g x).length = w) (l : List α) :
    (l.flatMap g).length = w * l.length := by
  induction l with
  | nil => simp
  | cons x rest ih => simp [List.flatMap_cons, hg x, ih]; ring

@[simp] theorem length_intBytes (n : Nat) (v : Int) : (intBytes n v).length = n := by simp [intBytes]

/-- The bytes of a signed operand in range hold its value. -/
theorem leValue_intBytes (n : Nat) (v : Int) (h0 : 0 ≤ v) (h1 : v < 256 ^ n) : (leValue (intBytes n v) : Int) = v := by
  rw [intBytes, leValue_leBytes, Int.emod_eq_of_lt h0 h1]
  have hv : (v.toNat : Int) = v := Int.toNat_of_nonneg h0
  rw [Nat.mod_eq_of_lt (by zify; rw [hv]; exact h1), hv]

@[simp] theorem length_packConfig (c : ConfigW) : (packConfig c).length = 232 := by
  simp only [packConfig, List.length_append, length_leBytes, length_intBytes]
  rw [length_flatMap_const (intBytes 2) 2 (by simp), length_flatMap_const (fun v : B32 => leBytes 4 v.toNat) 4 (by simp),
    length_flatMap_const (fun v : B32 => leBytes 4 v.toNat) 4 (by simp),
    length_flatMap_const (fun v : B32 => leBytes 4 v.toNat) 4 (by simp)]
  simp

end Sys2Proof
end

