-- ==== Sys2Proof/Laws/Cfg.lean ====
section
/-! SUPPORT. What a configuration's proof of R6 and R7 says, one lemma per constraint. -/

namespace Sys2Proof

theorem CmdKind.mem_all (k : CmdKind) : k ∈ CmdKind.all := by cases k <;> decide

namespace Cfg

theorem parts (c : Cfg) :
    c.leadsPrefixFree = true ∧ c.lengthsCover = true ∧ c.sigsKnown = true ∧ c.sigsClean = true ∧
      c.layoutsFit = true ∧ c.capacities = true := by
  have h := c.ok
  simpa [Params.wf, and_assoc] using h

/-- R7 (a): a leading string that begins another is the same kind's. -/
theorem lead_prefix {c : Cfg} {a b : CmdKind} (h : (c.lead a).isPrefixOf (c.lead b) = true) : a = b := by
  have hp := c.parts.1
  rw [Params.leadsPrefixFree, List.all_eq_true] at hp
  have := (List.all_eq_true.mp (hp a a.mem_all)) b b.mem_all
  simp only [h, Bool.not_true, Bool.or_false, beq_iff_eq] at this
  exact this

/-- R7 (b). -/
theorem lengths (c : Cfg) : 68 ≤ c.histLen ∧ 232 ≤ c.cfgLen ∧ c.ackPos < c.ackLen ∧ 1 ≤ c.infoLen := by
  have h := c.parts.2.1
  simpa [Params.lengthsCover, and_assoc] using h

/-- R6, capacities of the receive side. -/
theorem frames (c : Cfg) :
    (c.ackLen ≤ c.rxMax ∧ c.ackLen < 2 ^ c.lenW) ∧ (c.infoLen ≤ c.rxMax ∧ c.infoLen < 2 ^ c.lenW) ∧
      (c.histLen ≤ c.rxMax ∧ c.histLen < 2 ^ c.lenW) ∧ (c.cfgLen ≤ c.rxMax ∧ c.cfgLen < 2 ^ c.lenW) := by
  have h := c.parts.2.2.2.2.2
  simp only [Params.capacities, Bool.and_eq_true, List.all_cons, List.all_nil, decide_eq_true_eq, and_true] at h
  obtain ⟨⟨⟨-, h1, h2, h3, h4⟩, -⟩, -⟩ := h
  exact ⟨h1, h2, h3, h4⟩

/-- R6, capacities of the transmit side. -/
theorem total_le (c : Cfg) (k : CmdKind) : c.totalLength k ≤ c.txMax ∧ c.totalLength k < 2 ^ c.lenW := by
  have h := c.parts.2.2.2.2.2
  simp only [Params.capacities, Bool.and_eq_true] at h
  have := (List.all_eq_true.mp h.1.1.1) k k.mem_all
  simpa using this

/-- Every expected length is positive, fits the receive buffer, and can be counted (R6, R7 (b)). -/
theorem rlen_bounds (c : Cfg) (k : CmdKind) : 1 ≤ c.rlen k ∧ c.rlen k ≤ c.rxMax ∧ c.rlen k < 2 ^ c.lenW := by
  have h1 := c.lengths
  have h2 := c.frames
  cases k <;> simp only [Params.rlen, CmdKind.response] <;> omega

/-- R7 (c): the layout of a signature has a descriptor. -/
theorem layoutOf_sig {c : Cfg} {g : Signature} (h : g ∈ c.sigs) : ∃ l, c.layoutOf g.layout = some l := by
  have hk := (List.all_eq_true.mp c.parts.2.2.1) g h
  cases hg : g.layout with
  | v18_2 => exact ⟨_, rfl⟩
  | other n =>
    rw [hg] at hk
    exact Option.isSome_iff_exists.mp hk

/-- R6, row `SIGS`: not empty, and no whitespace byte at either end. -/
theorem sig_clean {c : Cfg} {g : Signature} (h : g ∈ c.sigs) : cleanSignature c.ws g.bytes = true := by
  have hk := c.parts.2.2.2.1
  simp only [Params.sigsClean, Bool.and_eq_true] at hk
  exact (List.all_eq_true.mp hk.1) g h

theorem sigs_distinct (c : Cfg) : distinctSignatures c.sigs = true := by
  have hk := c.parts.2.2.2.1
  simp only [Params.sigsClean, Bool.and_eq_true] at hk
  exact hk.2

end Cfg

/-- Signatures are pairwise distinct, so two with the same bytes are one entry. -/
theorem distinct_unique {l : List Signature} (hd : distinctSignatures l = true) {g h : Signature} (hg : g ∈ l)
    (hh : h ∈ l) (e : g.bytes = h.bytes) : g = h := by
  induction l with
  | nil => simp at hg
  | cons x rest ih =>
    simp only [distinctSignatures, Bool.and_eq_true, List.all_eq_true] at hd
    rcases List.mem_cons.mp hg with rfl | hg' <;> rcases List.mem_cons.mp hh with rfl | hh'
    · rfl
    · have := hd.1 h hh'
      simp [e] at this
    · have := hd.1 g hg'
      simp [e] at this
    · exact ih hd.2 hg' hh'

theorem lookup_mem {α : Type} (m : List (Nat × α)) (n : Nat) (v : α) (h : m.lookup n = some v) : (n, v) ∈ m := by
  induction m with
  | nil => simp at h
  | cons x rest ih =>
    obtain ⟨a, b⟩ := x
    simp only [List.lookup_cons] at h
    split at h
    · rename_i hn
      simp only [beq_iff_eq] at hn
      simp only [Option.some.injEq] at h
      subst hn h
      simp
    · exact List.mem_cons_of_mem _ (ih h)

/-- Every descriptor of `LAYOUTS` fits its frame (R7 (b), R32, R45). -/
theorem Cfg.layout_fits {c : Cfg} {id : LayoutId} {l : Layout} (h : c.layoutOf id = some l) : l.fits c.histLen = true := by
  cases id with
  | v18_2 =>
    simp only [Params.layoutOf, Option.some.injEq] at h
    subst h
    have h68 := c.lengths.1
    have h0 : layoutV18_2.fits 68 = true := by decide
    simp only [Layout.fits, List.all_eq_true, Bool.and_eq_true, decide_eq_true_eq] at h0 ⊢
    exact fun x hx => ⟨(h0 x hx).1, le_trans (h0 x hx).2 h68⟩
  | other n => exact (List.all_eq_true.mp c.parts.2.2.2.2.1) _ (lookup_mem _ _ _ h)

end Sys2Proof
end

