-- ==== Sys2Proof/Laws/State.lean ====
section
/-! SUPPORT. Each field of the state after each shared state change: one lemma per field per update, all by rfl. -/

namespace Sys2Proof.Machine

/-! ## `clearErrors` -/

@[simp] theorem clearErrors_op (s : State) : (clearErrors s).op = s.op := rfl
@[simp] theorem clearErrors_param (s : State) : (clearErrors s).param = s.param := rfl
@[simp] theorem clearErrors_idx (s : State) : (clearErrors s).idx = s.idx := rfl
@[simp] theorem clearErrors_cfgw (s : State) : (clearErrors s).cfgw = s.cfgw := rfl
@[simp] theorem clearErrors_txbuf (s : State) : (clearErrors s).txbuf = s.txbuf := rfl
@[simp] theorem clearErrors_txlen (s : State) : (clearErrors s).txlen = s.txlen := rfl
@[simp] theorem clearErrors_rxbuf (s : State) : (clearErrors s).rxbuf = s.rxbuf := rfl
@[simp] theorem clearErrors_rxlen (s : State) : (clearErrors s).rxlen = s.rxlen := rfl
@[simp] theorem clearErrors_txi (s : State) : (clearErrors s).txi = s.txi := rfl
@[simp] theorem clearErrors_rxi (s : State) : (clearErrors s).rxi = s.rxi := rfl
@[simp] theorem clearErrors_hist (s : State) : (clearErrors s).hist = s.hist := rfl
@[simp] theorem clearErrors_cfgr (s : State) : (clearErrors s).cfgr = s.cfgr := rfl
@[simp] theorem clearErrors_bbout (s : State) : (clearErrors s).bbout = s.bbout := rfl
@[simp] theorem clearErrors_info (s : State) : (clearErrors s).info = s.info := rfl
@[simp] theorem clearErrors_ack (s : State) : (clearErrors s).ack = s.ack := rfl
@[simp] theorem clearErrors_valid (s : State) : (clearErrors s).valid = s.valid := rfl
@[simp] theorem clearErrors_histPresent (s : State) : (clearErrors s).histPresent = s.histPresent := rfl
@[simp] theorem clearErrors_cfgPresent (s : State) : (clearErrors s).cfgPresent = s.cfgPresent := rfl
@[simp] theorem clearErrors_infoPresent (s : State) : (clearErrors s).infoPresent = s.infoPresent := rfl
@[simp] theorem clearErrors_session (s : State) : (clearErrors s).session = s.session := rfl
@[simp] theorem clearErrors_laser (s : State) : (clearErrors s).laser = s.laser := rfl
@[simp] theorem clearErrors_fan (s : State) : (clearErrors s).fan = s.fan := rfl
@[simp] theorem clearErrors_layout (s : State) : (clearErrors s).layout = s.layout := rfl
@[simp] theorem clearErrors_err (s : State) : (clearErrors s).err = .none := rfl
@[simp] theorem clearErrors_errExpected (s : State) : (clearErrors s).errExpected = 0 := rfl
@[simp] theorem clearErrors_errActual (s : State) : (clearErrors s).errActual = 0 := rfl
@[simp] theorem clearErrors_errSig (s : State) : (clearErrors s).errSig = none := rfl
@[simp] theorem clearErrors_errSiglen (s : State) : (clearErrors s).errSiglen = 0 := rfl
@[simp] theorem clearErrors_errValue (s : State) : (clearErrors s).errValue = 0 := rfl
@[simp] theorem clearErrors_errField (s : State) : (clearErrors s).errField = 0 := rfl
@[simp] theorem clearErrors_xferCount (s : State) : (clearErrors s).xferCount = s.xferCount := rfl
@[simp] theorem clearErrors_cfg (s : State) : (clearErrors s).cfg = s.cfg := rfl
@[simp] theorem clearErrors_requests (s : State) : (clearErrors s).requests = s.requests := rfl
@[simp] theorem clearErrors_answers (s : State) : (clearErrors s).answers = s.answers := rfl
@[simp] theorem clearErrors_bus (s : State) : (clearErrors s).bus = s.bus := rfl

/-! ## `finish` -/

@[simp] theorem finish_op (s : State) : (finish s).op = s.op := rfl
@[simp] theorem finish_param (s : State) : (finish s).param = s.param := rfl
@[simp] theorem finish_idx (s : State) : (finish s).idx = s.idx := rfl
@[simp] theorem finish_cfgw (s : State) : (finish s).cfgw = s.cfgw := rfl
@[simp] theorem finish_txbuf (s : State) : (finish s).txbuf = [] := rfl
@[simp] theorem finish_txlen (s : State) : (finish s).txlen = 0 := rfl
@[simp] theorem finish_rxbuf (s : State) : (finish s).rxbuf = [] := rfl
@[simp] theorem finish_rxlen (s : State) : (finish s).rxlen = 0 := rfl
@[simp] theorem finish_txi (s : State) : (finish s).txi = 0 := rfl
@[simp] theorem finish_rxi (s : State) : (finish s).rxi = 0 := rfl
@[simp] theorem finish_hist (s : State) : (finish s).hist = s.hist := rfl
@[simp] theorem finish_cfgr (s : State) : (finish s).cfgr = s.cfgr := rfl
@[simp] theorem finish_bbout (s : State) : (finish s).bbout = s.bbout := rfl
@[simp] theorem finish_info (s : State) : (finish s).info = s.info := rfl
@[simp] theorem finish_ack (s : State) : (finish s).ack = s.ack := rfl
@[simp] theorem finish_valid (s : State) : (finish s).valid = s.valid := rfl
@[simp] theorem finish_histPresent (s : State) : (finish s).histPresent = s.histPresent := rfl
@[simp] theorem finish_cfgPresent (s : State) : (finish s).cfgPresent = s.cfgPresent := rfl
@[simp] theorem finish_infoPresent (s : State) : (finish s).infoPresent = s.infoPresent := rfl
@[simp] theorem finish_session (s : State) : (finish s).session = s.session := rfl
@[simp] theorem finish_laser (s : State) : (finish s).laser = s.laser := rfl
@[simp] theorem finish_fan (s : State) : (finish s).fan = s.fan := rfl
@[simp] theorem finish_layout (s : State) : (finish s).layout = s.layout := rfl
@[simp] theorem finish_err (s : State) : (finish s).err = s.err := rfl
@[simp] theorem finish_errExpected (s : State) : (finish s).errExpected = s.errExpected := rfl
@[simp] theorem finish_errActual (s : State) : (finish s).errActual = s.errActual := rfl
@[simp] theorem finish_errSig (s : State) : (finish s).errSig = s.errSig := rfl
@[simp] theorem finish_errSiglen (s : State) : (finish s).errSiglen = s.errSiglen := rfl
@[simp] theorem finish_errValue (s : State) : (finish s).errValue = s.errValue := rfl
@[simp] theorem finish_errField (s : State) : (finish s).errField = s.errField := rfl
@[simp] theorem finish_xferCount (s : State) : (finish s).xferCount = s.xferCount := rfl
@[simp] theorem finish_cfg (s : State) : (finish s).cfg = s.cfg := rfl
@[simp] theorem finish_requests (s : State) : (finish s).requests = s.requests := rfl
@[simp] theorem finish_answers (s : State) : (finish s).answers = s.answers := rfl
@[simp] theorem finish_bus (s : State) : (finish s).bus = s.bus := rfl

/-! ## `startExchange` -/

@[simp] theorem startExchange_op (k : CmdKind) (s : State) : (startExchange k s).op = s.op := rfl
@[simp] theorem startExchange_param (k : CmdKind) (s : State) : (startExchange k s).param = s.param := rfl
@[simp] theorem startExchange_idx (k : CmdKind) (s : State) : (startExchange k s).idx = s.idx := rfl
@[simp] theorem startExchange_cfgw (k : CmdKind) (s : State) : (startExchange k s).cfgw = s.cfgw := rfl
@[simp] theorem startExchange_txbuf (k : CmdKind) (s : State) : (startExchange k s).txbuf = s.txbuf := rfl
@[simp] theorem startExchange_txlen (k : CmdKind) (s : State) : (startExchange k s).txlen = s.txlen := rfl
@[simp] theorem startExchange_rxbuf (k : CmdKind) (s : State) : (startExchange k s).rxbuf = s.rxbuf := rfl
@[simp] theorem startExchange_rxlen (k : CmdKind) (s : State) : (startExchange k s).rxlen = s.rxlen := rfl
@[simp] theorem startExchange_txi (k : CmdKind) (s : State) : (startExchange k s).txi = s.txlen := rfl
@[simp] theorem startExchange_rxi (k : CmdKind) (s : State) : (startExchange k s).rxi = s.rxi := rfl
@[simp] theorem startExchange_hist (k : CmdKind) (s : State) : (startExchange k s).hist = s.hist := rfl
@[simp] theorem startExchange_cfgr (k : CmdKind) (s : State) : (startExchange k s).cfgr = s.cfgr := rfl
@[simp] theorem startExchange_bbout (k : CmdKind) (s : State) : (startExchange k s).bbout = s.bbout := rfl
@[simp] theorem startExchange_info (k : CmdKind) (s : State) : (startExchange k s).info = s.info := rfl
@[simp] theorem startExchange_ack (k : CmdKind) (s : State) : (startExchange k s).ack = (if k.response = .ack then false else s.ack) := rfl
@[simp] theorem startExchange_valid (k : CmdKind) (s : State) : (startExchange k s).valid = s.valid := rfl
@[simp] theorem startExchange_histPresent (k : CmdKind) (s : State) : (startExchange k s).histPresent = s.histPresent := rfl
@[simp] theorem startExchange_cfgPresent (k : CmdKind) (s : State) : (startExchange k s).cfgPresent = s.cfgPresent := rfl
@[simp] theorem startExchange_infoPresent (k : CmdKind) (s : State) : (startExchange k s).infoPresent = s.infoPresent := rfl
@[simp] theorem startExchange_session (k : CmdKind) (s : State) : (startExchange k s).session = s.session := rfl
@[simp] theorem startExchange_laser (k : CmdKind) (s : State) : (startExchange k s).laser = s.laser := rfl
@[simp] theorem startExchange_fan (k : CmdKind) (s : State) : (startExchange k s).fan = s.fan := rfl
@[simp] theorem startExchange_layout (k : CmdKind) (s : State) : (startExchange k s).layout = s.layout := rfl
@[simp] theorem startExchange_err (k : CmdKind) (s : State) : (startExchange k s).err = s.err := rfl
@[simp] theorem startExchange_errExpected (k : CmdKind) (s : State) : (startExchange k s).errExpected = s.errExpected := rfl
@[simp] theorem startExchange_errActual (k : CmdKind) (s : State) : (startExchange k s).errActual = s.errActual := rfl
@[simp] theorem startExchange_errSig (k : CmdKind) (s : State) : (startExchange k s).errSig = s.errSig := rfl
@[simp] theorem startExchange_errSiglen (k : CmdKind) (s : State) : (startExchange k s).errSiglen = s.errSiglen := rfl
@[simp] theorem startExchange_errValue (k : CmdKind) (s : State) : (startExchange k s).errValue = s.errValue := rfl
@[simp] theorem startExchange_errField (k : CmdKind) (s : State) : (startExchange k s).errField = s.errField := rfl
@[simp] theorem startExchange_xferCount (k : CmdKind) (s : State) : (startExchange k s).xferCount = s.xferCount + 1 := rfl
@[simp] theorem startExchange_cfg (k : CmdKind) (s : State) : (startExchange k s).cfg = s.cfg := rfl
@[simp] theorem startExchange_requests (k : CmdKind) (s : State) : (startExchange k s).requests = s.requests := rfl
@[simp] theorem startExchange_answers (k : CmdKind) (s : State) : (startExchange k s).answers = s.answers := rfl
@[simp] theorem startExchange_bus (k : CmdKind) (s : State) : (startExchange k s).bus = { out := s.txbuf.take s.txlen, settle := s.cfg.settle.get k, expected := s.cfg.rlen k } :: s.bus := rfl

/-! ## `receive` -/

@[simp] theorem receive_op (r : List Byte) (s : State) : (receive r s).op = s.op := rfl
@[simp] theorem receive_param (r : List Byte) (s : State) : (receive r s).param = s.param := rfl
@[simp] theorem receive_idx (r : List Byte) (s : State) : (receive r s).idx = s.idx := rfl
@[simp] theorem receive_cfgw (r : List Byte) (s : State) : (receive r s).cfgw = s.cfgw := rfl
@[simp] theorem receive_txbuf (r : List Byte) (s : State) : (receive r s).txbuf = s.txbuf := rfl
@[simp] theorem receive_txlen (r : List Byte) (s : State) : (receive r s).txlen = s.txlen := rfl
@[simp] theorem receive_rxbuf (r : List Byte) (s : State) : (receive r s).rxbuf = r.take s.cfg.rxMax := rfl
@[simp] theorem receive_rxlen (r : List Byte) (s : State) : (receive r s).rxlen = min r.length (2 ^ s.cfg.lenW - 1) := rfl
@[simp] theorem receive_txi (r : List Byte) (s : State) : (receive r s).txi = s.txi := rfl
@[simp] theorem receive_rxi (r : List Byte) (s : State) : (receive r s).rxi = min r.length (2 ^ s.cfg.lenW - 1) := rfl
@[simp] theorem receive_hist (r : List Byte) (s : State) : (receive r s).hist = s.hist := rfl
@[simp] theorem receive_cfgr (r : List Byte) (s : State) : (receive r s).cfgr = s.cfgr := rfl
@[simp] theorem receive_bbout (r : List Byte) (s : State) : (receive r s).bbout = s.bbout := rfl
@[simp] theorem receive_info (r : List Byte) (s : State) : (receive r s).info = s.info := rfl
@[simp] theorem receive_ack (r : List Byte) (s : State) : (receive r s).ack = s.ack := rfl
@[simp] theorem receive_valid (r : List Byte) (s : State) : (receive r s).valid = s.valid := rfl
@[simp] theorem receive_histPresent (r : List Byte) (s : State) : (receive r s).histPresent = s.histPresent := rfl
@[simp] theorem receive_cfgPresent (r : List Byte) (s : State) : (receive r s).cfgPresent = s.cfgPresent := rfl
@[simp] theorem receive_infoPresent (r : List Byte) (s : State) : (receive r s).infoPresent = s.infoPresent := rfl
@[simp] theorem receive_session (r : List Byte) (s : State) : (receive r s).session = s.session := rfl
@[simp] theorem receive_laser (r : List Byte) (s : State) : (receive r s).laser = s.laser := rfl
@[simp] theorem receive_fan (r : List Byte) (s : State) : (receive r s).fan = s.fan := rfl
@[simp] theorem receive_layout (r : List Byte) (s : State) : (receive r s).layout = s.layout := rfl
@[simp] theorem receive_err (r : List Byte) (s : State) : (receive r s).err = s.err := rfl
@[simp] theorem receive_errExpected (r : List Byte) (s : State) : (receive r s).errExpected = s.errExpected := rfl
@[simp] theorem receive_errActual (r : List Byte) (s : State) : (receive r s).errActual = s.errActual := rfl
@[simp] theorem receive_errSig (r : List Byte) (s : State) : (receive r s).errSig = s.errSig := rfl
@[simp] theorem receive_errSiglen (r : List Byte) (s : State) : (receive r s).errSiglen = s.errSiglen := rfl
@[simp] theorem receive_errValue (r : List Byte) (s : State) : (receive r s).errValue = s.errValue := rfl
@[simp] theorem receive_errField (r : List Byte) (s : State) : (receive r s).errField = s.errField := rfl
@[simp] theorem receive_xferCount (r : List Byte) (s : State) : (receive r s).xferCount = s.xferCount := rfl
@[simp] theorem receive_cfg (r : List Byte) (s : State) : (receive r s).cfg = s.cfg := rfl
@[simp] theorem receive_requests (r : List Byte) (s : State) : (receive r s).requests = s.requests := rfl
@[simp] theorem receive_answers (r : List Byte) (s : State) : (receive r s).answers = s.answers := rfl
@[simp] theorem receive_bus (r : List Byte) (s : State) : (receive r s).bus = s.bus := rfl

/-! ## `present` -/

@[simp] theorem present_op (r : Request) (rest : List Request) (s : State) : (present r rest s).op = r.op := rfl
@[simp] theorem present_param (r : Request) (rest : List Request) (s : State) : (present r rest s).param = r.param := rfl
@[simp] theorem present_idx (r : Request) (rest : List Request) (s : State) : (present r rest s).idx = r.idx := rfl
@[simp] theorem present_cfgw (r : Request) (rest : List Request) (s : State) : (present r rest s).cfgw = r.cfgw := rfl
@[simp] theorem present_txbuf (r : Request) (rest : List Request) (s : State) : (present r rest s).txbuf = s.txbuf := rfl
@[simp] theorem present_txlen (r : Request) (rest : List Request) (s : State) : (present r rest s).txlen = s.txlen := rfl
@[simp] theorem present_rxbuf (r : Request) (rest : List Request) (s : State) : (present r rest s).rxbuf = s.rxbuf := rfl
@[simp] theorem present_rxlen (r : Request) (rest : List Request) (s : State) : (present r rest s).rxlen = s.rxlen := rfl
@[simp] theorem present_txi (r : Request) (rest : List Request) (s : State) : (present r rest s).txi = s.txi := rfl
@[simp] theorem present_rxi (r : Request) (rest : List Request) (s : State) : (present r rest s).rxi = s.rxi := rfl
@[simp] theorem present_hist (r : Request) (rest : List Request) (s : State) : (present r rest s).hist = s.hist := rfl
@[simp] theorem present_cfgr (r : Request) (rest : List Request) (s : State) : (present r rest s).cfgr = s.cfgr := rfl
@[simp] theorem present_bbout (r : Request) (rest : List Request) (s : State) : (present r rest s).bbout = s.bbout := rfl
@[simp] theorem present_info (r : Request) (rest : List Request) (s : State) : (present r rest s).info = s.info := rfl
@[simp] theorem present_ack (r : Request) (rest : List Request) (s : State) : (present r rest s).ack = s.ack := rfl
@[simp] theorem present_valid (r : Request) (rest : List Request) (s : State) : (present r rest s).valid = s.valid := rfl
@[simp] theorem present_histPresent (r : Request) (rest : List Request) (s : State) : (present r rest s).histPresent = s.histPresent := rfl
@[simp] theorem present_cfgPresent (r : Request) (rest : List Request) (s : State) : (present r rest s).cfgPresent = s.cfgPresent := rfl
@[simp] theorem present_infoPresent (r : Request) (rest : List Request) (s : State) : (present r rest s).infoPresent = s.infoPresent := rfl
@[simp] theorem present_session (r : Request) (rest : List Request) (s : State) : (present r rest s).session = s.session := rfl
@[simp] theorem present_laser (r : Request) (rest : List Request) (s : State) : (present r rest s).laser = s.laser := rfl
@[simp] theorem present_fan (r : Request) (rest : List Request) (s : State) : (present r rest s).fan = s.fan := rfl
@[simp] theorem present_layout (r : Request) (rest : List Request) (s : State) : (present r rest s).layout = s.layout := rfl
@[simp] theorem present_err (r : Request) (rest : List Request) (s : State) : (present r rest s).err = s.err := rfl
@[simp] theorem present_errExpected (r : Request) (rest : List Request) (s : State) : (present r rest s).errExpected = s.errExpected := rfl
@[simp] theorem present_errActual (r : Request) (rest : List Request) (s : State) : (present r rest s).errActual = s.errActual := rfl
@[simp] theorem present_errSig (r : Request) (rest : List Request) (s : State) : (present r rest s).errSig = s.errSig := rfl
@[simp] theorem present_errSiglen (r : Request) (rest : List Request) (s : State) : (present r rest s).errSiglen = s.errSiglen := rfl
@[simp] theorem present_errValue (r : Request) (rest : List Request) (s : State) : (present r rest s).errValue = s.errValue := rfl
@[simp] theorem present_errField (r : Request) (rest : List Request) (s : State) : (present r rest s).errField = s.errField := rfl
@[simp] theorem present_xferCount (r : Request) (rest : List Request) (s : State) : (present r rest s).xferCount = s.xferCount := rfl
@[simp] theorem present_cfg (r : Request) (rest : List Request) (s : State) : (present r rest s).cfg = s.cfg := rfl
@[simp] theorem present_requests (r : Request) (rest : List Request) (s : State) : (present r rest s).requests = rest := rfl
@[simp] theorem present_answers (r : Request) (rest : List Request) (s : State) : (present r rest s).answers = s.answers := rfl
@[simp] theorem present_bus (r : Request) (rest : List Request) (s : State) : (present r rest s).bus = s.bus := rfl

/-! ## `handshakeFailed` -/

@[simp] theorem handshakeFailed_op (s : State) : (handshakeFailed s).op = s.op := rfl
@[simp] theorem handshakeFailed_param (s : State) : (handshakeFailed s).param = s.param := rfl
@[simp] theorem handshakeFailed_idx (s : State) : (handshakeFailed s).idx = s.idx := rfl
@[simp] theorem handshakeFailed_cfgw (s : State) : (handshakeFailed s).cfgw = s.cfgw := rfl
@[simp] theorem handshakeFailed_txbuf (s : State) : (handshakeFailed s).txbuf = s.txbuf := rfl
@[simp] theorem handshakeFailed_txlen (s : State) : (handshakeFailed s).txlen = s.txlen := rfl
@[simp] theorem handshakeFailed_rxbuf (s : State) : (handshakeFailed s).rxbuf = s.rxbuf := rfl
@[simp] theorem handshakeFailed_rxlen (s : State) : (handshakeFailed s).rxlen = s.rxlen := rfl
@[simp] theorem handshakeFailed_txi (s : State) : (handshakeFailed s).txi = s.txi := rfl
@[simp] theorem handshakeFailed_rxi (s : State) : (handshakeFailed s).rxi = s.rxi := rfl
@[simp] theorem handshakeFailed_hist (s : State) : (handshakeFailed s).hist = s.hist := rfl
@[simp] theorem handshakeFailed_cfgr (s : State) : (handshakeFailed s).cfgr = s.cfgr := rfl
@[simp] theorem handshakeFailed_bbout (s : State) : (handshakeFailed s).bbout = s.bbout := rfl
@[simp] theorem handshakeFailed_info (s : State) : (handshakeFailed s).info = s.info := rfl
@[simp] theorem handshakeFailed_ack (s : State) : (handshakeFailed s).ack = s.ack := rfl
@[simp] theorem handshakeFailed_valid (s : State) : (handshakeFailed s).valid = s.valid := rfl
@[simp] theorem handshakeFailed_histPresent (s : State) : (handshakeFailed s).histPresent = s.histPresent := rfl
@[simp] theorem handshakeFailed_cfgPresent (s : State) : (handshakeFailed s).cfgPresent = s.cfgPresent := rfl
@[simp] theorem handshakeFailed_infoPresent (s : State) : (handshakeFailed s).infoPresent = s.infoPresent := rfl
@[simp] theorem handshakeFailed_session (s : State) : (handshakeFailed s).session = (if s.err = .firmware then .firmwareFailed else .uninitialized) := rfl
@[simp] theorem handshakeFailed_laser (s : State) : (handshakeFailed s).laser = s.laser := rfl
@[simp] theorem handshakeFailed_fan (s : State) : (handshakeFailed s).fan = s.fan := rfl
@[simp] theorem handshakeFailed_layout (s : State) : (handshakeFailed s).layout = s.layout := rfl
@[simp] theorem handshakeFailed_err (s : State) : (handshakeFailed s).err = s.err := rfl
@[simp] theorem handshakeFailed_errExpected (s : State) : (handshakeFailed s).errExpected = s.errExpected := rfl
@[simp] theorem handshakeFailed_errActual (s : State) : (handshakeFailed s).errActual = s.errActual := rfl
@[simp] theorem handshakeFailed_errSig (s : State) : (handshakeFailed s).errSig = s.errSig := rfl
@[simp] theorem handshakeFailed_errSiglen (s : State) : (handshakeFailed s).errSiglen = s.errSiglen := rfl
@[simp] theorem handshakeFailed_errValue (s : State) : (handshakeFailed s).errValue = s.errValue := rfl
@[simp] theorem handshakeFailed_errField (s : State) : (handshakeFailed s).errField = s.errField := rfl
@[simp] theorem handshakeFailed_xferCount (s : State) : (handshakeFailed s).xferCount = s.xferCount := rfl
@[simp] theorem handshakeFailed_cfg (s : State) : (handshakeFailed s).cfg = s.cfg := rfl
@[simp] theorem handshakeFailed_requests (s : State) : (handshakeFailed s).requests = s.requests := rfl
@[simp] theorem handshakeFailed_answers (s : State) : (handshakeFailed s).answers = s.answers := rfl
@[simp] theorem handshakeFailed_bus (s : State) : (handshakeFailed s).bus = s.bus := rfl

/-! ## `recordError` -/

@[simp] theorem recordError_op (e : Error) (s : State) : (recordError e s).op = s.op := by cases e <;> rfl
@[simp] theorem recordError_param (e : Error) (s : State) : (recordError e s).param = s.param := by cases e <;> rfl
@[simp] theorem recordError_idx (e : Error) (s : State) : (recordError e s).idx = s.idx := by cases e <;> rfl
@[simp] theorem recordError_cfgw (e : Error) (s : State) : (recordError e s).cfgw = s.cfgw := by cases e <;> rfl
@[simp] theorem recordError_txbuf (e : Error) (s : State) : (recordError e s).txbuf = s.txbuf := by cases e <;> rfl
@[simp] theorem recordError_txlen (e : Error) (s : State) : (recordError e s).txlen = s.txlen := by cases e <;> rfl
@[simp] theorem recordError_rxbuf (e : Error) (s : State) : (recordError e s).rxbuf = s.rxbuf := by cases e <;> rfl
@[simp] theorem recordError_rxlen (e : Error) (s : State) : (recordError e s).rxlen = s.rxlen := by cases e <;> rfl
@[simp] theorem recordError_txi (e : Error) (s : State) : (recordError e s).txi = s.txi := by cases e <;> rfl
@[simp] theorem recordError_rxi (e : Error) (s : State) : (recordError e s).rxi = s.rxi := by cases e <;> rfl
@[simp] theorem recordError_hist (e : Error) (s : State) : (recordError e s).hist = s.hist := by cases e <;> rfl
@[simp] theorem recordError_cfgr (e : Error) (s : State) : (recordError e s).cfgr = s.cfgr := by cases e <;> rfl
@[simp] theorem recordError_bbout (e : Error) (s : State) : (recordError e s).bbout = s.bbout := by cases e <;> rfl
@[simp] theorem recordError_info (e : Error) (s : State) : (recordError e s).info = s.info := by cases e <;> rfl
@[simp] theorem recordError_ack (e : Error) (s : State) : (recordError e s).ack = s.ack := by cases e <;> rfl
@[simp] theorem recordError_valid (e : Error) (s : State) : (recordError e s).valid = s.valid := by cases e <;> rfl
@[simp] theorem recordError_histPresent (e : Error) (s : State) : (recordError e s).histPresent = s.histPresent := by cases e <;> rfl
@[simp] theorem recordError_cfgPresent (e : Error) (s : State) : (recordError e s).cfgPresent = s.cfgPresent := by cases e <;> rfl
@[simp] theorem recordError_infoPresent (e : Error) (s : State) : (recordError e s).infoPresent = s.infoPresent := by cases e <;> rfl
@[simp] theorem recordError_session (e : Error) (s : State) : (recordError e s).session = s.session := by cases e <;> rfl
@[simp] theorem recordError_laser (e : Error) (s : State) : (recordError e s).laser = s.laser := by cases e <;> rfl
@[simp] theorem recordError_fan (e : Error) (s : State) : (recordError e s).fan = s.fan := by cases e <;> rfl
@[simp] theorem recordError_layout (e : Error) (s : State) : (recordError e s).layout = s.layout := by cases e <;> rfl
@[simp] theorem recordError_xferCount (e : Error) (s : State) : (recordError e s).xferCount = s.xferCount := by cases e <;> rfl
@[simp] theorem recordError_cfg (e : Error) (s : State) : (recordError e s).cfg = s.cfg := by cases e <;> rfl
@[simp] theorem recordError_requests (e : Error) (s : State) : (recordError e s).requests = s.requests := by cases e <;> rfl
@[simp] theorem recordError_answers (e : Error) (s : State) : (recordError e s).answers = s.answers := by cases e <;> rfl
@[simp] theorem recordError_bus (e : Error) (s : State) : (recordError e s).bus = s.bus := by cases e <;> rfl

end Sys2Proof.Machine
end

