-- ==== Sys2Proof/Laws/Ops.lean ====
section
/-! SUPPORT. What each shared operation can do, said once: the gate, the command sent, the length check, the skeleton. -/

namespace Sys2Proof.Machine

@[simp] theorem andThen_go (s : State) (f : State → Run) : (Run.go s).andThen f = f s := rfl
@[simp] theorem andThen_raised (s : State) (f : State → Run) : (Run.raised s).andThen f = .raised s := rfl
@[simp] theorem andThen_stop (x : Fault) (f : State → Run) : (Run.stop x).andThen f = .stop x := rfl
@[simp] theorem andThen_raise (e : Error) (s : State) (f : State → Run) : (raise e s).andThen f = raise e s := rfl
@[simp] theorem onRaise_go (s : State) (f : State → State) : (Run.go s).onRaise f = .go s := rfl
@[simp] theorem onRaise_raised (s : State) (f : State → State) : (Run.raised s).onRaise f = .raised (f s) := rfl
@[simp] theorem onRaise_stop (x : Fault) (f : State → State) : (Run.stop x).onRaise f = .stop x := rfl
@[simp] theorem onRaise_raise (e : Error) (s : State) (f : State → State) :
    (raise e s).onRaise f = .raised (f (recordError e s)) := rfl

/-! ## The gate -/

/-- The local operations pass (R105). -/
theorem gate_local {op : BitVec 4} (h : op = 11 ∨ op = 12 ∨ op = 13) (s : State) : gate op s = .go s := by
  rcases h with rfl | rfl | rfl <;> simp [gate]

/-- No operation has the selectors 14 and 15 (R105). -/
theorem gate_unassigned {op : BitVec 4} (h : op = 14 ∨ op = 15) (s : State) : gate op s = raise .notReady s :=
  if_pos h

/-- OPEN (R105). -/
theorem gate_open (s : State) :
    gate (Instr.op .openSession) s =
      if s.session = .closed then raise .closed s
      else if s.session = .uninitialized then .go s else raise .notReady s := by
  simp [gate, Instr.op]

/-- The ten bus operations 1 to 10 (R105). -/
theorem gate_bus {op : BitVec 4} (h1 : 1 ≤ op.toNat) (h10 : op.toNat ≤ 10) (s : State) :
    gate op s =
      if s.session = .closed then raise .closed s
      else if s.session = .ready then .go s else raise .notReady s := by
  have hne : ∀ n : Nat, n < 16 → (op = BitVec.ofNat 4 n ↔ op.toNat = n) := by
    intro n hn
    constructor
    · rintro rfl
      simpa using hn
    · intro h
      apply BitVec.eq_of_toNat_eq
      simpa [h] using (Nat.mod_eq_of_lt hn).symm
  have h14 : ¬ (op = 14 ∨ op = 15) := by
    rintro (h | h)
    · have := (hne 14 (by norm_num)).mp h; omega
    · have := (hne 15 (by norm_num)).mp h; omega
  have h11 : ¬ (op = 11 ∨ op = 12 ∨ op = 13) := by
    rintro (h | h | h)
    · have := (hne 11 (by norm_num)).mp h; omega
    · have := (hne 12 (by norm_num)).mp h; omega
    · have := (hne 13 (by norm_num)).mp h; omega
  have h0 : ¬ op = 0 := by
    intro h
    have := (hne 0 (by norm_num)).mp h; omega
  unfold gate
  rw [if_neg h14, if_neg h11, if_neg h0]

/-! ## The skeleton -/

/-- An operation that answers a next state ran its body to an end or was turned away, and finished (R104, R108). -/
theorem operation_next {op : BitVec 4} {body : State → Run} {s t : State} (h : operation op body s = .next t) :
    ∃ u, t = finish u ∧
      ((gate op (clearErrors s)).andThen body = .go u ∨ (gate op (clearErrors s)).andThen body = .raised u) := by
  unfold operation at h
  split at h <;> simp_all

/-- An operation that stops is stopped by its body. -/
theorem operation_fault {op : BitVec 4} {body : State → Run} {s : State} {f : Fault}
    (h : operation op body s = .fault f) : (gate op (clearErrors s)).andThen body = .stop f := by
  unfold operation at h
  split at h <;> simp_all

/-- No operation is refused. -/
theorem operation_not_refused (op : BitVec 4) (body : State → Run) (s : State) (r : Refusal) :
    operation op body s ≠ .refused r := by
  unfold operation
  split <;> simp

/-! ## The command and its exchange -/

/-- The state once command `k` with operand `v` has gone to the transport and one answer has been taken (R66, R106). -/
def called (k : CmdKind) (v : Operand) (rest : List Answer) (s : State) : State :=
  { s with
    txbuf := s.cfg.command k v
    txlen := (s.cfg.command k v).length
    txi := (s.cfg.command k v).length
    xferCount := s.xferCount + 1
    ack := if k.response = .ack then false else s.ack
    bus := { out := s.cfg.command k v, settle := s.cfg.settle.get k, expected := s.cfg.rlen k } :: s.bus
    answers := rest }

theorem sendCommand_range {k : CmdKind} {v : Operand} {e : Error} (h : checkOperand v = some e) (s : State) :
    sendCommand k v s = raise e s := by simp [sendCommand, encodeCommand, h]

theorem sendCommand_silent {k : CmdKind} {v : Operand} {s : State} (h : checkOperand v = none) (ha : s.answers = []) :
    sendCommand k v s = .stop .transportSilent := by simp [sendCommand, encodeCommand, exchange, h, ha]

theorem sendCommand_fail {k : CmdKind} {v : Operand} {s : State} {rest : List Answer} (h : checkOperand v = none)
    (ha : s.answers = .fail :: rest) : sendCommand k v s = raise .transport (called k v rest s) := by
  simp [sendCommand, encodeCommand, exchange, h, ha, startExchange, called]

theorem sendCommand_bytes {k : CmdKind} {v : Operand} {s : State} {r : List Byte} {rest : List Answer}
    (h : checkOperand v = none) (ha : s.answers = .bytes r :: rest) :
    sendCommand k v s = .go (receive r (called k v rest s)) := by
  simp [sendCommand, encodeCommand, exchange, h, ha, startExchange, called, receive]

/-- Everything steps 3 and 4 of a bus operation can do (R66, R106, R107). -/
theorem sendCommand_cases (k : CmdKind) (v : Operand) (s : State) :
    (∃ e, checkOperand v = some e ∧ sendCommand k v s = raise e s) ∨
    (checkOperand v = none ∧ s.answers = [] ∧ sendCommand k v s = .stop .transportSilent) ∨
    (checkOperand v = none ∧ ∃ rest, s.answers = .fail :: rest ∧
      sendCommand k v s = raise .transport (called k v rest s)) ∨
    (checkOperand v = none ∧ ∃ r rest, s.answers = .bytes r :: rest ∧
      sendCommand k v s = .go (receive r (called k v rest s))) := by
  cases h : checkOperand v with
  | some e => exact .inl ⟨e, rfl, sendCommand_range h s⟩
  | none =>
    cases ha : s.answers with
    | nil => exact .inr (.inl ⟨rfl, rfl, sendCommand_silent h ha⟩)
    | cons a rest =>
      cases a with
      | fail => exact .inr (.inr (.inl ⟨rfl, rest, rfl, sendCommand_fail h ha⟩))
      | bytes r => exact .inr (.inr (.inr ⟨rfl, r, rest, rfl, sendCommand_bytes h ha⟩))

/-! ## Range checks -/

/-- A range check that fails reports a RangeError on one of the 19 operands (R20, R67, R68). -/
theorem checkBoundaries_range {field : Nat} {l : List Int} {e : Error} (h : checkBoundaries field l = some e) :
    ∃ n v, field ≤ n ∧ n < field + l.length ∧ e = .range (BitVec.ofNat 6 n) v := by
  induction l generalizing field with
  | nil => simp [checkBoundaries] at h
  | cons x rest ih =>
    simp only [checkBoundaries] at h
    split at h
    · simp only [Option.some.injEq] at h
      exact ⟨field, x, le_refl _, by simp, h.symm⟩
    · obtain ⟨n, v, h1, h2, h3⟩ := ih h
      exact ⟨n, v, by omega, by simp; omega, h3⟩

theorem checkOperand_range {v : Operand} {e : Error} (h : checkOperand v = some e) :
    ∃ f x, e = .range f x ∧ f.toNat ≤ 18 := by
  cases v with
  | none => simp [checkOperand] at h
  | power p =>
    simp only [checkOperand, checkPower] at h
    split at h <;> simp at h
    exact ⟨0, p, h.symm, by decide⟩
  | config c =>
    simp only [checkOperand, checkConfig, checkDac] at h
    split at h
    · rename_i e' he
      obtain ⟨n, x, h1, h2, rfl⟩ := checkBoundaries_range he
      simp only [Option.some.injEq] at h
      subst h
      refine ⟨_, x, rfl, ?_⟩
      simp at h2
      simp [BitVec.toNat_ofNat]
      omega
    · split at h
      · rename_i e' he
        split at he <;> simp at he
        simp only [Option.some.injEq] at h
        subst h
        exact ⟨17, _, he.symm, by decide⟩
      · split at h <;> simp at h
        exact ⟨18, _, h.symm, by decide⟩

/-! ## The length check -/

/-- What a received frame must meet to be decoded (R83). -/
def frameAccepted (k : CmdKind) (s : State) : Prop :=
  s.cfg.rlen k ≤ s.rxlen ∧ (s.cfg.strictLen = true → s.rxlen ≤ s.cfg.rlen k)

theorem checkLength_ok {k : CmdKind} {s : State} (h : frameAccepted k s) : checkLength k s = .go s := by
  unfold frameAccepted at h
  unfold checkLength
  rw [if_neg (by omega), if_neg (by rintro ⟨h1, h2⟩; have := h.2 h1; omega)]

theorem checkLength_bad {k : CmdKind} {s : State} (h : ¬ frameAccepted k s) :
    checkLength k s = raise (.framing (s.cfg.rlen k) s.rxlen) s := by
  unfold frameAccepted at h
  unfold checkLength
  split
  · rfl
  · rename_i h1
    rw [if_pos]
    by_contra h2
    exact h ⟨by omega, fun hs => by by_contra h3; exact h2 ⟨hs, by omega⟩⟩

/-- Everything the length check can do (R83). -/
theorem checkLength_cases (k : CmdKind) (s : State) :
    (frameAccepted k s ∧ checkLength k s = .go s) ∨
    (¬ frameAccepted k s ∧ checkLength k s = raise (.framing (s.cfg.rlen k) s.rxlen) s) := by
  by_cases h : frameAccepted k s
  · exact .inl ⟨h, checkLength_ok h⟩
  · exact .inr ⟨h, checkLength_bad h⟩

/-! ## Decoding -/

theorem decodeAck_cases (k : CmdKind) (s : State) :
    (frameAccepted k s ∧ decodeAck k s = .go { s with ack := ackFlag s.cfg s.rxbuf }) ∨
    (¬ frameAccepted k s ∧ decodeAck k s = raise (.framing (s.cfg.rlen k) s.rxlen) s) := by
  rcases checkLength_cases k s with ⟨h, e⟩ | ⟨h, e⟩
  · exact .inl ⟨h, by simp [decodeAck, e]⟩
  · exact .inr ⟨h, by simp [decodeAck, e]⟩

theorem decodeCfg_cases (s : State) :
    (frameAccepted .readConfig s ∧ decodeCfg s = .go { s with cfgr := some (configOf s.rxbuf), cfgPresent := true }) ∨
    (¬ frameAccepted .readConfig s ∧ decodeCfg s = raise (.framing (s.cfg.rlen .readConfig) s.rxlen) s) := by
  rcases checkLength_cases .readConfig s with ⟨h, e⟩ | ⟨h, e⟩
  · exact .inl ⟨h, by simp [decodeCfg, e]⟩
  · exact .inr ⟨h, by simp [decodeCfg, e]⟩

theorem decodeHist_cases (s : State) :
    (frameAccepted .readHistogram s ∧ s.layout = none ∧ decodeHist s = .stop (.noValue .layout)) ∨
    (frameAccepted .readHistogram s ∧ ∃ id, s.layout = some id ∧ s.cfg.layoutOf id = none ∧
      decodeHist s = .stop .layoutUnknown) ∨
    (frameAccepted .readHistogram s ∧ ∃ id l, s.layout = some id ∧ s.cfg.layoutOf id = some l ∧
      decodeHist s = .go { s with hist := some (histOf l s.rxbuf), histPresent := true }) ∨
    (¬ frameAccepted .readHistogram s ∧
      decodeHist s = raise (.framing (s.cfg.rlen .readHistogram) s.rxlen) s) := by
  rcases checkLength_cases .readHistogram s with ⟨h, e⟩ | ⟨h, e⟩
  · cases hl : s.layout with
    | none => exact .inl ⟨h, rfl, by simp [decodeHist, e, hl]⟩
    | some id =>
      cases hd : s.cfg.layoutOf id with
      | none => exact .inr (.inl ⟨h, id, rfl, hd, by simp [decodeHist, e, hl, hd]⟩)
      | some l => exact .inr (.inr (.inl ⟨h, id, l, rfl, hd, by simp [decodeHist, e, hl, hd]⟩))
  · exact .inr (.inr (.inr ⟨h, by simp [decodeHist, e]⟩))

/-- The range of an info frame that is kept after trimming (R93, R94). -/
def trimmed (s : State) : List Byte :=
  slice (s.rxbuf.take s.cfg.infoLen) (trim s.cfg.ws (s.rxbuf.take s.cfg.infoLen)).1
    (trim s.cfg.ws (s.rxbuf.take s.cfg.infoLen)).2

theorem decodeInfo_cases (s : State) :
    (frameAccepted .info s ∧ classify s.cfg.sigs (trimmed s) = none ∧
      decodeInfo s = raise (.firmware (s.rxbuf.take s.cfg.infoLen)) s) ∨
    (frameAccepted .info s ∧ ∃ m, classify s.cfg.sigs (trimmed s) = some m ∧
      decodeInfo s = .go { s with
        info := some { raw := s.rxbuf.take s.cfg.infoLen
                       lo := (trim s.cfg.ws (s.rxbuf.take s.cfg.infoLen)).1
                       hi := (trim s.cfg.ws (s.rxbuf.take s.cfg.infoLen)).2 }
        infoPresent := true
        layout := some m }) ∨
    (¬ frameAccepted .info s ∧ decodeInfo s = raise (.framing (s.cfg.rlen .info) s.rxlen) s) := by
  rcases checkLength_cases .info s with ⟨h, e⟩ | ⟨h, e⟩
  · cases hc : classify s.cfg.sigs (trimmed s) with
    | none =>
      refine .inl ⟨h, rfl, ?_⟩
      unfold trimmed at hc
      simp [decodeInfo, e, hc]
    | some m =>
      refine .inr (.inl ⟨h, m, rfl, ?_⟩)
      unfold trimmed at hc
      simp [decodeInfo, e, hc]
  · exact .inr (.inr ⟨h, by simp [decodeInfo, e]⟩)

/-- A signature classifies as its own layout (R95). -/
theorem classify_some {sigs : List Signature} {x : List Byte} {m : LayoutId} (h : classify sigs x = some m) :
    ∃ g ∈ sigs, g.bytes = x ∧ g.layout = m := by
  simp only [classify, Option.map_eq_some_iff] at h
  obtain ⟨g, hf, rfl⟩ := h
  exact ⟨g, List.mem_of_find?_eq_some hf, by simpa using List.find?_some hf, rfl⟩

theorem classify_none {sigs : List Signature} {x : List Byte} (h : classify sigs x = none) :
    ∀ g ∈ sigs, g.bytes ≠ x := by
  simpa [classify] using h

/-- The validator's verdict is the congruence of R102 (d). -/
theorem validFlag_iff (h : Hist) : validFlag h = true ↔ ChecksumHolds h := by
  simp only [validFlag, beq_iff_eq, ChecksumHolds, sum16]
  constructor
  · intro e
    rw [← e, BitVec.toNat_ofNat]
  · intro e
    apply BitVec.eq_of_toNat_eq
    rw [BitVec.toNat_ofNat]
    exact e

theorem validateRecord_cases (s : State) :
    (s.hist = none ∧ validateRecord s = .stop (.noValue .hist)) ∨
    (∃ h, s.hist = some h ∧ ChecksumHolds h ∧ validateRecord s = .go { s with valid := true }) ∨
    (∃ h, s.hist = some h ∧ ¬ ChecksumHolds h ∧ validateRecord s = raise .checksum { s with valid := false }) := by
  cases hh : s.hist with
  | none => exact .inl ⟨rfl, by simp [validateRecord, hh]⟩
  | some h =>
    by_cases hv : ChecksumHolds h
    · exact .inr (.inl ⟨h, rfl, hv, by simp [validateRecord, hh, (validFlag_iff h).mpr hv]⟩)
    · have : validFlag h = false := by
        rw [← Bool.not_eq_true]; exact fun e => hv ((validFlag_iff h).mp e)
      exact .inr (.inr ⟨h, rfl, hv, by simp [validateRecord, hh, this]⟩)

end Sys2Proof.Machine
end

