-- ==== Sys2Proof/Laws/Exec.lean ====
section
/-! SUPPORT. What an operation does as a whole: the form every arm of exec has, and one inversion lemma for the bus operations, one
for OPEN and one for the local operations. -/

namespace Sys2Proof.Machine

theorem andThen_assoc (r : Run) (f g : State → Run) : (r.andThen f).andThen g = r.andThen fun s => (f s).andThen g := by
  cases r <;> rfl

/-- Steps 5 and 6 of the ten bus operations 1 to 10: what follows the exchange (R110 to R119). -/
def afterExchange : Instr → State → Run
  | .laserOn => fun s => (decodeAck .laserOn s).andThen fun u => .go { u with laser := if u.ack then .on else u.laser }
  | .laserOff => fun s => (decodeAck .laserOff s).andThen fun u => .go { u with laser := if u.ack then .off else u.laser }
  | .fanOn => fun s => (decodeAck .fanOn s).andThen fun u => .go { u with fan := if u.ack then .on else u.fan }
  | .fanOff => fun s => (decodeAck .fanOff s).andThen fun u => .go { u with fan := if u.ack then .off else u.fan }
  | .setFanPower _ => decodeAck .setFanPower
  | .setLaserPower _ => decodeAck .setLaserPower
  | .readHistogram => fun s => (decodeHist s).andThen validateRecord
  | .readConfig => decodeCfg
  | .writeConfig _ => decodeAck .writeConfig
  | .saveConfig => decodeAck .saveConfig
  | .openSession | .validate | .binbound _ | .close => Run.go

/-- Every bus operation but OPEN is its command, its exchange and what follows (R104). -/
theorem exec_bus {i : Instr} {k : CmdKind} (hk : i.kind = some k) (ho : i ≠ .openSession) (s : State) :
    exec i s = operation i.op (fun t => (sendCommand k i.operand t).andThen (afterExchange i)) s := by
  cases i <;> simp [Instr.kind] at hk ho <;> subst hk <;>
    simp [exec, execLaserOn, execLaserOff, execFanOn, execFanOff, execSetFanPower, execSetLaserPower,
      execReadHistogram, execReadConfig, execWriteConfig, execSaveConfig, ackCommand, andThen_assoc, Instr.operand,
      afterExchange] <;> rfl

theorem op_bus {i : Instr} {k : CmdKind} (hk : i.kind = some k) (ho : i ≠ .openSession) :
    1 ≤ i.op.toNat ∧ i.op.toNat ≤ 10 := by
  cases i <;> simp [Instr.kind, Instr.op] at *

/-- A bus operation turned away at the gate. -/
theorem exec_bus_closed {i : Instr} {k : CmdKind} (hk : i.kind = some k) {s : State} (h : s.session = .closed) :
    exec i s = .next (finish (recordError .closed (clearErrors s))) := by
  by_cases ho : i = .openSession
  · subst ho
    simp [exec, execOpen, operation, gate_open, h, raise]
  · rw [exec_bus hk ho, operation, gate_bus (op_bus hk ho).1 (op_bus hk ho).2]
    simp [h, raise]

theorem exec_bus_notReady {i : Instr} {k : CmdKind} (hk : i.kind = some k) (ho : i ≠ .openSession) {s : State}
    (hc : s.session ≠ .closed) (hr : s.session ≠ .ready) :
    exec i s = .next (finish (recordError .notReady (clearErrors s))) := by
  rw [exec_bus hk ho, operation, gate_bus (op_bus hk ho).1 (op_bus hk ho).2]
  simp [hc, hr, raise]

theorem exec_open_notReady {s : State} (hc : s.session ≠ .closed) (hu : s.session ≠ .uninitialized) :
    exec .openSession s = .next (finish (recordError .notReady (clearErrors s))) := by
  simp [exec, execOpen, operation, gate_open, hc, hu, raise]

/-- How a run ends an operation (R104 step 7). -/
def ending : Run → Host.Outcome State Fault Refusal
  | .go t => .next (finish t)
  | .raised t => .next (finish t)
  | .stop f => .fault f

@[simp] theorem ending_go (t : State) : ending (.go t) = .next (finish t) := rfl
@[simp] theorem ending_raised (t : State) : ending (.raised t) = .next (finish t) := rfl
@[simp] theorem ending_raise (e : Error) (t : State) : ending (raise e t) = .next (finish (recordError e t)) := rfl
@[simp] theorem ending_stop (f : Fault) : ending (.stop f) = .fault f := rfl

theorem operation_eq (op : BitVec 4) (body : State → Run) (s : State) :
    operation op body s = ending ((gate op (clearErrors s)).andThen body) := by
  unfold operation ending
  split <;> simp_all

/-- A bus operation in Ready: what its steps 3 to 6 make of it. -/
theorem exec_bus_ready {i : Instr} {k : CmdKind} (hk : i.kind = some k) (ho : i ≠ .openSession) {s : State}
    (h : s.session = .ready) :
    exec i s = ending ((sendCommand k i.operand (clearErrors s)).andThen (afterExchange i)) := by
  rw [exec_bus hk ho, operation_eq, gate_bus (op_bus hk ho).1 (op_bus hk ho).2]
  simp [h]

/-- OPEN in Uninitialized (R109). -/
theorem exec_open_uninitialized {s : State} (h : s.session = .uninitialized) :
    exec .openSession s = ending
      ((((sendCommand .info .none { clearErrors s with session := .handshaking }).andThen decodeInfo).onRaise
        handshakeFailed).andThen fun u => .go { u with session := .ready, laser := .unknown, fan := .unknown }) := by
  simp [exec, execOpen, operation_eq, gate_open, h]

/-- Everything a bus operation 1 to 10 can do (R104). -/
theorem exec_bus_cases {i : Instr} {k : CmdKind} (hk : i.kind = some k) (ho : i ≠ .openSession) (s : State) :
    (s.session = .closed ∧ exec i s = .next (finish (recordError .closed (clearErrors s)))) ∨
    (s.session ≠ .closed ∧ s.session ≠ .ready ∧ exec i s = .next (finish (recordError .notReady (clearErrors s)))) ∨
    (s.session = .ready ∧ ∃ f v, checkOperand i.operand = some (.range f v) ∧ f.toNat ≤ 18 ∧
      exec i s = .next (finish (recordError (.range f v) (clearErrors s)))) ∨
    (s.session = .ready ∧ checkOperand i.operand = none ∧ s.answers = [] ∧ exec i s = .fault .transportSilent) ∨
    (s.session = .ready ∧ checkOperand i.operand = none ∧ ∃ rest, s.answers = .fail :: rest ∧
      exec i s = .next (finish (recordError .transport (called k i.operand rest (clearErrors s))))) ∨
    (s.session = .ready ∧ checkOperand i.operand = none ∧ ∃ r rest, s.answers = .bytes r :: rest ∧
      exec i s = ending (afterExchange i (receive r (called k i.operand rest (clearErrors s))))) := by
  by_cases hc : s.session = .closed
  · exact .inl ⟨hc, exec_bus_closed hk hc⟩
  by_cases hr : s.session = .ready
  · have e := exec_bus_ready hk ho hr
    rcases sendCommand_cases k i.operand (clearErrors s) with ⟨x, hx, h⟩ | ⟨hx, ha, h⟩ | ⟨hx, rest, ha, h⟩ | ⟨hx, r, rest, ha, h⟩
    · obtain ⟨f, v, rfl, hf⟩ := checkOperand_range hx
      exact .inr (.inr (.inl ⟨hr, f, v, hx, hf, by rw [e, h]; rfl⟩))
    · exact .inr (.inr (.inr (.inl ⟨hr, hx, ha, by rw [e, h]; rfl⟩)))
    · exact .inr (.inr (.inr (.inr (.inl ⟨hr, hx, rest, ha, by rw [e, h]; rfl⟩))))
    · exact .inr (.inr (.inr (.inr (.inr ⟨hr, hx, r, rest, ha, by rw [e, h]; rfl⟩))))
  · exact .inr (.inl ⟨hc, hr, exec_bus_notReady hk ho hc hr⟩)

/-- The state of OPEN once the info command has gone out and been answered (R109). -/
def handshake (rest : List Answer) (s : State) : State :=
  called .info .none rest { clearErrors s with session := .handshaking }

/-- How OPEN ends once its info frame has been decoded or rejected (R109). -/
def afterHandshake (r : Run) : Host.Outcome State Fault Refusal :=
  ending ((r.onRaise handshakeFailed).andThen fun u =>
    .go { u with session := .ready, laser := .unknown, fan := .unknown })

/-- Everything OPEN can do (R109). -/
theorem exec_open_cases (s : State) :
    (s.session = .closed ∧ exec .openSession s = .next (finish (recordError .closed (clearErrors s)))) ∨
    (s.session ≠ .closed ∧ s.session ≠ .uninitialized ∧
      exec .openSession s = .next (finish (recordError .notReady (clearErrors s)))) ∨
    (s.session = .uninitialized ∧ s.answers = [] ∧ exec .openSession s = .fault .transportSilent) ∨
    (s.session = .uninitialized ∧ ∃ rest, s.answers = .fail :: rest ∧
      exec .openSession s = .next (finish (handshakeFailed (recordError .transport (handshake rest s))))) ∨
    (s.session = .uninitialized ∧ ∃ r rest, s.answers = .bytes r :: rest ∧
      ((frameAccepted .info (receive r (handshake rest s)) ∧
        classify s.cfg.sigs (trimmed (receive r (handshake rest s))) = none ∧
        exec .openSession s = .next (finish (handshakeFailed (recordError
          (.firmware ((r.take s.cfg.rxMax).take s.cfg.infoLen)) (receive r (handshake rest s)))))) ∨
       (∃ m, frameAccepted .info (receive r (handshake rest s)) ∧
        classify s.cfg.sigs (trimmed (receive r (handshake rest s))) = some m ∧
        exec .openSession s = .next (finish { receive r (handshake rest s) with
          info := some { raw := (r.take s.cfg.rxMax).take s.cfg.infoLen
                         lo := (trim s.cfg.ws ((r.take s.cfg.rxMax).take s.cfg.infoLen)).1
                         hi := (trim s.cfg.ws ((r.take s.cfg.rxMax).take s.cfg.infoLen)).2 }
          infoPresent := true
          layout := some m
          session := .ready
          laser := .unknown
          fan := .unknown })) ∨
       (¬ frameAccepted .info (receive r (handshake rest s)) ∧
        exec .openSession s = .next (finish (handshakeFailed (recordError
          (.framing (s.cfg.rlen .info) (min r.length (2 ^ s.cfg.lenW - 1))) (receive r (handshake rest s)))))))) := by
  by_cases hc : s.session = .closed
  · exact .inl ⟨hc, exec_bus_closed (k := .info) rfl hc⟩
  by_cases hu : s.session = .uninitialized
  · have e := exec_open_uninitialized hu
    rcases sendCommand_cases .info .none { clearErrors s with session := .handshaking } with
      ⟨x, hx, h⟩ | ⟨hx, ha, h⟩ | ⟨hx, rest, ha, h⟩ | ⟨hx, r, rest, ha, h⟩
    · simp [checkOperand] at hx
    · exact .inr (.inr (.inl ⟨hu, ha, by rw [e, h]; rfl⟩))
    · exact .inr (.inr (.inr (.inl ⟨hu, rest, ha, by rw [e, h]; rfl⟩)))
    · refine .inr (.inr (.inr (.inr ⟨hu, r, rest, ha, ?_⟩)))
      rcases decodeInfo_cases (receive r (handshake rest s)) with ⟨h1, h2, h3⟩ | ⟨h1, m, h2, h3⟩ | ⟨h1, h3⟩
      · exact .inl ⟨h1, h2, (e.trans (by rw [h, andThen_go]; rfl)).trans (congrArg afterHandshake h3)⟩
      · exact .inr (.inl ⟨m, h1, h2, (e.trans (by rw [h, andThen_go]; rfl)).trans (congrArg afterHandshake h3)⟩)
      · exact .inr (.inr ⟨h1, (e.trans (by rw [h, andThen_go]; rfl)).trans (congrArg afterHandshake h3)⟩)
  · exact .inr (.inl ⟨hc, hu, exec_open_notReady hc hu⟩)

/-- Everything VALIDATE can do (R122). -/
theorem exec_validate_cases (s : State) :
    (s.histPresent = false ∧ exec .validate s = .next (finish (recordError .notReady (clearErrors s)))) ∨
    (s.histPresent = true ∧ s.hist = none ∧ exec .validate s = .fault (.noValue .hist)) ∨
    (s.histPresent = true ∧ ∃ h, s.hist = some h ∧ ChecksumHolds h ∧
      exec .validate s = .next (finish { clearErrors s with valid := true })) ∨
    (s.histPresent = true ∧ ∃ h, s.hist = some h ∧ ¬ ChecksumHolds h ∧
      exec .validate s = .next (finish (recordError .checksum { clearErrors s with valid := false }))) := by
  have e : exec .validate s =
      ending (if (clearErrors s).histPresent = false then raise .notReady (clearErrors s) else validateRecord (clearErrors s)) := by
    rw [exec, execValidate, operation_eq, gate_local (by simp [Instr.op])]
    rfl
  by_cases hp : s.histPresent = false
  · exact .inl ⟨hp, by rw [e]; simp [hp]⟩
  · have hp' : s.histPresent = true := by simpa using hp
    rw [clearErrors_histPresent, if_neg hp] at e
    rcases validateRecord_cases (clearErrors s) with ⟨h1, h2⟩ | ⟨h, h1, h2, h3⟩ | ⟨h, h1, h2, h3⟩
    · exact .inr (.inl ⟨hp', h1, by rw [e, h2]; rfl⟩)
    · exact .inr (.inr (.inl ⟨hp', h, h1, h2, by rw [e, h3]; rfl⟩))
    · exact .inr (.inr (.inr ⟨hp', h, h1, h2, by rw [e, h3]; rfl⟩))

/-- Everything BINBOUND can do (R123). -/
theorem exec_binbound_cases (i : Int) (s : State) :
    (s.cfgPresent = false ∧ exec (.binbound i) s = .next (finish (recordError .notReady (clearErrors s)))) ∨
    (s.cfgPresent = true ∧ (i < 0 ∨ i > 14) ∧
      exec (.binbound i) s = .next (finish (recordError (.range 1 i) (clearErrors s)))) ∨
    (s.cfgPresent = true ∧ ¬ (i < 0 ∨ i > 14) ∧ s.cfgr = none ∧ exec (.binbound i) s = .fault (.noValue .cfgr)) ∨
    (s.cfgPresent = true ∧ ¬ (i < 0 ∨ i > 14) ∧ ∃ c, s.cfgr = some c ∧
      exec (.binbound i) s = .next (finish { clearErrors s with bbout := boundary c i })) := by
  simp only [exec, execBinbound, operation_eq, gate_local (op := Instr.op (.binbound i)) (by simp [Instr.op]), andThen_go,
    clearErrors_cfgPresent, clearErrors_cfgr, checkIndex]
  by_cases hp : s.cfgPresent = false
  · exact .inl ⟨hp, by simp [hp]⟩
  · have hp' : s.cfgPresent = true := by simpa using hp
    by_cases hi : i < 0 ∨ i > 14
    · exact .inr (.inl ⟨hp', hi, by simp only [if_neg hp, if_pos hi, ending_raise]⟩)
    · cases hc : s.cfgr with
      | none => exact .inr (.inr (.inl ⟨hp', hi, rfl, by simp only [if_neg hp, if_neg hi, ending_stop]⟩))
      | some c => exact .inr (.inr (.inr ⟨hp', hi, c, rfl, by simp only [if_neg hp, if_neg hi, ending_go]⟩))

/-- CLOSE, in every state (R124). -/
theorem exec_close (s : State) : exec .close s = .next (finish { clearErrors s with session := .closed }) := by
  simp only [exec, execClose, operation_eq, gate_local (op := Instr.op .close) (by simp [Instr.op]), andThen_go, ending_go]

/-- Every operation is a body in the one skeleton (R104). -/
theorem exec_operation (i : Instr) : ∃ body, ∀ s, exec i s = operation i.op body s := by
  cases i
  case close => exact ⟨fun t => .go { t with session := .closed }, fun _ => rfl⟩
  all_goals exact ⟨_, fun _ => rfl⟩

/-- No operation is refused. -/
theorem exec_not_refused (i : Instr) (s : State) (r : Refusal) : exec i s ≠ .refused r := by
  obtain ⟨body, h⟩ := exec_operation i
  rw [h]
  exact operation_not_refused _ _ _ _

/-- What follows the exchange of each response kind ends the same way when the frame is not accepted (R83, R130). -/
theorem afterExchange_bad {i : Instr} {k : CmdKind} (hk : i.kind = some k) (ho : i ≠ .openSession) {s : State}
    (h : ¬ frameAccepted k s) : afterExchange i s = raise (.framing (s.cfg.rlen k) s.rxlen) s := by
  cases i <;> simp [Instr.kind] at hk ho <;> subst hk <;>
    simp [afterExchange, decodeAck, decodeCfg, decodeHist, checkLength_bad h]

/-- A bus operation in Ready whose operand is in range and whose transport answered (R104). -/
theorem exec_bus_bytes {i : Instr} {k : CmdKind} (hk : i.kind = some k) (ho : i ≠ .openSession) {s : State} {r : List Byte}
    {rest : List Answer} (hr : s.session = .ready) (ha : s.answers = .bytes r :: rest) (hc : checkOperand i.operand = none) :
    exec i s = ending (afterExchange i (receive r (called k i.operand rest (clearErrors s)))) := by
  rw [exec_bus_ready hk ho hr, sendCommand_bytes hc (by simpa using ha), andThen_go]

/-- Step 6 of a toggle: the power sub-state follows an acknowledged command (R110 to R113). -/
def settled : Instr → State → State
  | .laserOn, u => { u with laser := if u.ack then .on else u.laser }
  | .laserOff, u => { u with laser := if u.ack then .off else u.laser }
  | .fanOn, u => { u with fan := if u.ack then .on else u.fan }
  | .fanOff, u => { u with fan := if u.ack then .off else u.fan }
  | .openSession, u | .setFanPower _, u | .setLaserPower _, u | .readHistogram, u | .readConfig, u | .writeConfig _, u
  | .saveConfig, u | .validate, u | .binbound _, u | .close, u => u

@[simp] theorem settled_op (i : Instr) (u : State) : (settled i u).op = u.op := by cases i <;> rfl
@[simp] theorem settled_param (i : Instr) (u : State) : (settled i u).param = u.param := by cases i <;> rfl
@[simp] theorem settled_idx (i : Instr) (u : State) : (settled i u).idx = u.idx := by cases i <;> rfl
@[simp] theorem settled_cfgw (i : Instr) (u : State) : (settled i u).cfgw = u.cfgw := by cases i <;> rfl
@[simp] theorem settled_txbuf (i : Instr) (u : State) : (settled i u).txbuf = u.txbuf := by cases i <;> rfl
@[simp] theorem settled_txlen (i : Instr) (u : State) : (settled i u).txlen = u.txlen := by cases i <;> rfl
@[simp] theorem settled_rxbuf (i : Instr) (u : State) : (settled i u).rxbuf = u.rxbuf := by cases i <;> rfl
@[simp] theorem settled_rxlen (i : Instr) (u : State) : (settled i u).rxlen = u.rxlen := by cases i <;> rfl
@[simp] theorem settled_txi (i : Instr) (u : State) : (settled i u).txi = u.txi := by cases i <;> rfl
@[simp] theorem settled_rxi (i : Instr) (u : State) : (settled i u).rxi = u.rxi := by cases i <;> rfl
@[simp] theorem settled_hist (i : Instr) (u : State) : (settled i u).hist = u.hist := by cases i <;> rfl
@[simp] theorem settled_cfgr (i : Instr) (u : State) : (settled i u).cfgr = u.cfgr := by cases i <;> rfl
@[simp] theorem settled_bbout (i : Instr) (u : State) : (settled i u).bbout = u.bbout := by cases i <;> rfl
@[simp] theorem settled_info (i : Instr) (u : State) : (settled i u).info = u.info := by cases i <;> rfl
@[simp] theorem settled_ack (i : Instr) (u : State) : (settled i u).ack = u.ack := by cases i <;> rfl
@[simp] theorem settled_valid (i : Instr) (u : State) : (settled i u).valid = u.valid := by cases i <;> rfl
@[simp] theorem settled_histPresent (i : Instr) (u : State) : (settled i u).histPresent = u.histPresent := by cases i <;> rfl
@[simp] theorem settled_cfgPresent (i : Instr) (u : State) : (settled i u).cfgPresent = u.cfgPresent := by cases i <;> rfl
@[simp] theorem settled_infoPresent (i : Instr) (u : State) : (settled i u).infoPresent = u.infoPresent := by cases i <;> rfl
@[simp] theorem settled_session (i : Instr) (u : State) : (settled i u).session = u.session := by cases i <;> rfl
@[simp] theorem settled_layout (i : Instr) (u : State) : (settled i u).layout = u.layout := by cases i <;> rfl
@[simp] theorem settled_err (i : Instr) (u : State) : (settled i u).err = u.err := by cases i <;> rfl
@[simp] theorem settled_errExpected (i : Instr) (u : State) : (settled i u).errExpected = u.errExpected := by cases i <;> rfl
@[simp] theorem settled_errActual (i : Instr) (u : State) : (settled i u).errActual = u.errActual := by cases i <;> rfl
@[simp] theorem settled_errSig (i : Instr) (u : State) : (settled i u).errSig = u.errSig := by cases i <;> rfl
@[simp] theorem settled_errSiglen (i : Instr) (u : State) : (settled i u).errSiglen = u.errSiglen := by cases i <;> rfl
@[simp] theorem settled_errValue (i : Instr) (u : State) : (settled i u).errValue = u.errValue := by cases i <;> rfl
@[simp] theorem settled_errField (i : Instr) (u : State) : (settled i u).errField = u.errField := by cases i <;> rfl
@[simp] theorem settled_xferCount (i : Instr) (u : State) : (settled i u).xferCount = u.xferCount := by cases i <;> rfl
@[simp] theorem settled_cfg (i : Instr) (u : State) : (settled i u).cfg = u.cfg := by cases i <;> rfl
@[simp] theorem settled_requests (i : Instr) (u : State) : (settled i u).requests = u.requests := by cases i <;> rfl
@[simp] theorem settled_answers (i : Instr) (u : State) : (settled i u).answers = u.answers := by cases i <;> rfl
@[simp] theorem settled_bus (i : Instr) (u : State) : (settled i u).bus = u.bus := by cases i <;> rfl

/-- An accepted acknowledge frame (R92, R110 to R115, R118, R119). -/
theorem afterExchange_ack {i : Instr} {k : CmdKind} (hk : i.kind = some k) (ha : k.response = .ack) (s : State)
    (h : frameAccepted k s) : afterExchange i s = .go (settled i { s with ack := ackFlag s.cfg s.rxbuf }) := by
  rcases decodeAck_cases k s with ⟨-, e⟩ | ⟨h', -⟩
  · cases i <;> simp [Instr.kind] at hk <;> subst hk <;> first | (simp [CmdKind.response] at ha; done) | skip
    all_goals simp only [afterExchange, e, settled, andThen_go]
  · exact absurd h h'

/-- The one frame of an exchange that succeeded (R106, R107). -/
def answered (k : CmdKind) (v : Operand) (r : List Byte) (rest : List Answer) (s : State) : State :=
  receive r (called k v rest (clearErrors s))

/-- Every next state an operation can answer, by the way it ended: turned away, transport failure, bad frame length, the
acknowledged operations, READ_CONFIG, READ_HISTOGRAM, OPEN, VALIDATE, BINBOUND, CLOSE. -/
theorem exec_next_cases {i : Instr} {s t : State} (h : exec i s = .next t) :
    (∃ e, (e = .closed ∧ s.session = .closed ∧ i.kind.isSome = true ∨ e = .notReady ∨
        ∃ f v, e = .range f v ∧ f.toNat ≤ 18) ∧
      t = finish (recordError e (clearErrors s))) ∨
    (∃ k rest, i.kind = some k ∧ Admitted i s ∧ s.answers = .fail :: rest ∧
      t = finish (recordError .transport (called k i.operand rest (clearErrors s)))) ∨
    (∃ k r rest, i.kind = some k ∧ Admitted i s ∧ s.answers = .bytes r :: rest ∧
      ¬ frameAccepted k (answered k i.operand r rest s) ∧
      t = finish (recordError (.framing (s.cfg.rlen k) (min r.length (2 ^ s.cfg.lenW - 1))) (answered k i.operand r rest s))) ∨
    (∃ k r rest, i.kind = some k ∧ k.response = .ack ∧ Admitted i s ∧ s.answers = .bytes r :: rest ∧
      frameAccepted k (answered k i.operand r rest s) ∧
      t = finish (settled i { answered k i.operand r rest s with ack := ackFlag s.cfg (r.take s.cfg.rxMax) })) ∨
    (i = .readConfig ∧ Admitted i s ∧ ∃ r rest, s.answers = .bytes r :: rest ∧
      frameAccepted .readConfig (answered .readConfig .none r rest s) ∧
      t = finish { answered .readConfig .none r rest s with
        cfgr := some (configOf (r.take s.cfg.rxMax)), cfgPresent := true }) ∨
    (i = .readHistogram ∧ Admitted i s ∧ ∃ r rest l, s.answers = .bytes r :: rest ∧
      frameAccepted .readHistogram (answered .readHistogram .none r rest s) ∧
      ((ChecksumHolds (histOf l (r.take s.cfg.rxMax)) ∧
        t = finish { answered .readHistogram .none r rest s with
          hist := some (histOf l (r.take s.cfg.rxMax)), histPresent := true, valid := true }) ∨
       (¬ ChecksumHolds (histOf l (r.take s.cfg.rxMax)) ∧
        t = finish (recordError .checksum { answered .readHistogram .none r rest s with
          hist := some (histOf l (r.take s.cfg.rxMax)), histPresent := true, valid := false })))) ∨
    (i = .openSession ∧ Admitted i s ∧ ∃ r rest, s.answers = .bytes r :: rest ∧
      frameAccepted .info (answered .info .none r rest s) ∧
      ((classify s.cfg.sigs (trimmed (answered .info .none r rest s)) = none ∧
        t = finish { recordError (.firmware ((r.take s.cfg.rxMax).take s.cfg.infoLen)) (answered .info .none r rest s) with
          session := .firmwareFailed }) ∨
       (∃ m, classify s.cfg.sigs (trimmed (answered .info .none r rest s)) = some m ∧
        t = finish { answered .info .none r rest s with
          info := some { raw := (r.take s.cfg.rxMax).take s.cfg.infoLen
                         lo := (trim s.cfg.ws ((r.take s.cfg.rxMax).take s.cfg.infoLen)).1
                         hi := (trim s.cfg.ws ((r.take s.cfg.rxMax).take s.cfg.infoLen)).2 }
          infoPresent := true
          layout := some m
          session := .ready
          laser := .unknown
          fan := .unknown }))) ∨
    (i = .validate ∧ s.histPresent = true ∧ ∃ h, s.hist = some h ∧
      ((ChecksumHolds h ∧ t = finish { clearErrors s with valid := true }) ∨
       (¬ ChecksumHolds h ∧ t = finish (recordError .checksum { clearErrors s with valid := false })))) ∨
    (∃ x c, i = .binbound x ∧ s.cfgPresent = true ∧ s.cfgr = some c ∧
      t = finish { clearErrors s with bbout := boundary c x }) ∨
    (i = .close ∧ t = finish { clearErrors s with session := .closed }) := by
  by_cases ho : i = .openSession
  · subst ho
    have hback : s.session = .uninitialized → s = { s with session := .uninitialized } := by intro e; cases s; simp_all
    rcases exec_open_cases s with ⟨h1, e⟩ | ⟨-, -, e⟩ | ⟨-, -, e⟩ | ⟨h1, rest, ha, e⟩ |
      ⟨h1, r, rest, ha, ⟨hf, hc, e⟩ | ⟨m, hf, hc, e⟩ | ⟨hf, e⟩⟩ <;> rw [e] at h <;> cases h
    · exact .inl ⟨_, .inl ⟨rfl, h1, rfl⟩, rfl⟩
    · exact .inl ⟨_, .inr (.inl rfl), rfl⟩
    · refine .inr (.inl ⟨.info, rest, rfl, ⟨rfl, .inl ⟨rfl, h1⟩⟩, ha, ?_⟩)
      conv_rhs => rw [hback h1]
      rfl
    · exact .inr (.inr (.inr (.inr (.inr (.inr (.inl ⟨rfl, ⟨rfl, .inl ⟨rfl, h1⟩⟩, r, rest, ha, hf, .inl ⟨hc, rfl⟩⟩))))))
    · exact .inr (.inr (.inr (.inr (.inr (.inr (.inl ⟨rfl, ⟨rfl, .inl ⟨rfl, h1⟩⟩, r, rest, ha, hf, .inr ⟨m, hc, rfl⟩⟩))))))
    · refine .inr (.inr (.inl ⟨.info, r, rest, rfl, ⟨rfl, .inl ⟨rfl, h1⟩⟩, ha, hf, ?_⟩))
      conv_rhs => rw [hback h1]
      rfl
  rcases hk : i.kind with _ | k
  · cases i <;> simp [Instr.kind] at hk
    case validate =>
      rcases exec_validate_cases s with ⟨h1, e⟩ | ⟨-, -, e⟩ | ⟨h1, x, h2, h3, e⟩ | ⟨h1, x, h2, h3, e⟩ <;> rw [e] at h <;> cases h
      · exact .inl ⟨_, .inr (.inl rfl), rfl⟩
      · exact .inr (.inr (.inr (.inr (.inr (.inr (.inr (.inl ⟨rfl, h1, x, h2, .inl ⟨h3, rfl⟩⟩)))))))
      · exact .inr (.inr (.inr (.inr (.inr (.inr (.inr (.inl ⟨rfl, h1, x, h2, .inr ⟨h3, rfl⟩⟩)))))))
    case binbound x =>
      rcases exec_binbound_cases x s with ⟨h1, e⟩ | ⟨-, -, e⟩ | ⟨-, -, -, e⟩ | ⟨h1, -, c, h2, e⟩ <;> rw [e] at h <;> cases h
      · exact .inl ⟨_, .inr (.inl rfl), rfl⟩
      · exact .inl ⟨_, .inr (.inr ⟨_, _, rfl, by decide⟩), rfl⟩
      · exact .inr (.inr (.inr (.inr (.inr (.inr (.inr (.inr (.inl ⟨x, c, rfl, h1, h2, rfl⟩))))))))
    case close =>
      rw [exec_close] at h; cases h
      exact .inr (.inr (.inr (.inr (.inr (.inr (.inr (.inr (.inr ⟨rfl, rfl⟩))))))))
  · rcases exec_bus_cases hk ho s with ⟨h1, e⟩ | ⟨-, -, e⟩ | ⟨-, f, v, -, h2, e⟩ | ⟨-, -, -, e⟩ |
      ⟨h1, h2, rest, ha, e⟩ | ⟨h1, h2, r, rest, ha, e⟩
    · rw [e] at h; cases h; exact .inl ⟨_, .inl ⟨rfl, h1, rfl⟩, rfl⟩
    · rw [e] at h; cases h; exact .inl ⟨_, .inr (.inl rfl), rfl⟩
    · rw [e] at h; cases h; exact .inl ⟨_, .inr (.inr ⟨_, _, rfl, h2⟩), rfl⟩
    · rw [e] at h; cases h
    · rw [e] at h; cases h
      exact .inr (.inl ⟨k, rest, rfl, ⟨h2, .inr ⟨ho, by simp [hk], h1⟩⟩, ha, rfl⟩)
    · have hA : Admitted i s := ⟨h2, .inr ⟨ho, by simp [hk], h1⟩⟩
      by_cases hf : frameAccepted k (answered k i.operand r rest s)
      · cases hr : k.response
        case ack =>
          rw [e] at h
          change ending (afterExchange i (answered k i.operand r rest s)) = _ at h
          rw [afterExchange_ack hk hr _ hf] at h; cases h
          exact .inr (.inr (.inr (.inl ⟨k, r, rest, rfl, hr, hA, ha, hf, rfl⟩)))
        case info => cases i <;> simp [Instr.kind] at hk ho <;> subst hk <;> simp [CmdKind.response] at hr
        case hist =>
          have hi : i = .readHistogram := by
            cases i <;> simp [Instr.kind] at hk ho <;> subst hk <;> simp [CmdKind.response] at hr
            rfl
          subst hi; cases hk
          rw [e] at h
          change ending ((decodeHist (answered .readHistogram .none r rest s)).andThen validateRecord) = _ at h
          rcases decodeHist_cases (answered .readHistogram .none r rest s) with ⟨-, -, e3⟩ |
            ⟨-, id', -, -, e3⟩ | ⟨-, id', l', -, -, e3⟩ | ⟨h1, -⟩
          · rw [e3] at h; cases h
          · rw [e3] at h; cases h
          · rw [e3, andThen_go] at h
            rcases validateRecord_cases { answered .readHistogram .none r rest s with
              hist := some (histOf l' (answered .readHistogram .none r rest s).rxbuf), histPresent := true } with
              ⟨h1, -⟩ | ⟨x, h1, h2, e4⟩ | ⟨x, h1, h2, e4⟩
            · cases h1
            · cases h1; rw [e4] at h; cases h
              exact .inr (.inr (.inr (.inr (.inr (.inl ⟨rfl, hA, r, rest, l', ha, hf, .inl ⟨h2, rfl⟩⟩)))))
            · cases h1; rw [e4] at h; cases h
              exact .inr (.inr (.inr (.inr (.inr (.inl ⟨rfl, hA, r, rest, l', ha, hf, .inr ⟨h2, rfl⟩⟩)))))
          · exact absurd hf h1
        case cfg =>
          have hi : i = .readConfig := by
            cases i <;> simp [Instr.kind] at hk ho <;> subst hk <;> simp [CmdKind.response] at hr
            rfl
          subst hi; cases hk
          rw [e] at h
          change ending (decodeCfg (answered .readConfig .none r rest s)) = _ at h
          rcases decodeCfg_cases (answered .readConfig .none r rest s) with ⟨-, e3⟩ | ⟨h1, -⟩
          · rw [e3] at h; cases h
            exact .inr (.inr (.inr (.inr (.inl ⟨rfl, hA, r, rest, ha, hf, rfl⟩))))
          · exact absurd hf h1
      · rw [e] at h
        change ending (afterExchange i (answered k i.operand r rest s)) = _ at h
        rw [afterExchange_bad hk ho hf] at h; cases h
        exact .inr (.inr (.inl ⟨k, r, rest, rfl, hA, ha, hf, rfl⟩))
end Sys2Proof.Machine
end

