-- ==== Sys2Proof/Laws/Frames.lean ====
section
/-! SUPPORT. Frames and commands: what the receive buffer's capacity does not cut, which operands pass, and how a command's kind
is read from its leading bytes. -/

namespace Sys2Proof

/-- A kind is read back from its leading bytes, whatever follows (R7 (a), R54, R61). -/
theorem kindOf_lead (c : Cfg) (k : CmdKind) (v : List Byte) : c.kindOf (c.lead k ++ v) = some k := by
  unfold Params.kindOf
  rcases h : CmdKind.all.find? (fun j => (c.lead j).isPrefixOf (c.lead k ++ v)) with _ | j
  · rw [List.find?_eq_none] at h
    exact absurd (List.isPrefixOf_iff_prefix.mpr (List.prefix_append _ _)) (h k k.mem_all)
  · have h1 := List.find?_some h
    have h2 : c.lead j <+: c.lead k ++ v := List.isPrefixOf_iff_prefix.mp h1
    have h3 : c.lead k <+: c.lead k ++ v := List.prefix_append _ _
    rcases List.prefix_or_prefix_of_prefix h2 h3 with h4 | h4
    · rw [Cfg.lead_prefix (List.isPrefixOf_iff_prefix.mpr h4)]
    · rw [Cfg.lead_prefix (List.isPrefixOf_iff_prefix.mpr h4)]

/-- `VAR` has the length its format says (R53). -/
theorem length_var {i : Instr} {k} (hk : i.kind = some k) : i.operand.var.length = k.format.varLen := by
  cases i <;> simp [Instr.kind] at hk <;> subst hk <;> simp [Instr.operand, Operand.var, CmdKind.format, Format.varLen]


namespace Machine

theorem map_congr {α β : Type} {n : Nat} {v : Vector α n} {f g : α → β} (h : ∀ x ∈ v.toList, f x = g x) :
    v.map f = v.map g := by
  apply Vector.ext
  intro i hi
  simp only [Vector.getElem_map]
  exact h _ (by simp)

/-- No layout looks past `HIST_LEN` (R32, R45). -/
theorem histOf_take {c : Cfg} {id : LayoutId} {l : Layout} (hl : c.layoutOf id = some l) {m : Nat} (hm : c.histLen ≤ m)
    (r : List Byte) : histOf l (r.take m) = histOf l r := by
  have hf := Cfg.layout_fits hl
  have key : ∀ (f : Field) (w : Nat), (f, w) ∈ l.fields →
      memRead (r.take m) f.offset f.width = memRead r f.offset f.width := by
    intro f w hm
    have := (List.all_eq_true.mp hf) _ hm
    simp at this
    exact memRead_take r _ _ _ (by omega)
  have e1 : ∀ f ∈ l.bin.toList, memRead (r.take m) f.offset f.width = memRead r f.offset f.width := fun f hm =>
    key f 2 (by simp only [Layout.fields, List.mem_append, List.mem_map]; exact .inl (.inl (.inl ⟨f, hm, rfl⟩)))
  have e2 : ∀ f ∈ l.mtof.toList, memRead (r.take m) f.offset f.width = memRead r f.offset f.width := fun f hm =>
    key f 4 (by simp only [Layout.fields, List.mem_append, List.mem_map]; exact .inl (.inl (.inr ⟨f, hm, rfl⟩)))
  have e3 : ∀ f ∈ l.pm.toList, memRead (r.take m) f.offset f.width = memRead r f.offset f.width := fun f hm =>
    key f 4 (by simp only [Layout.fields, List.mem_append, List.mem_map]; exact .inr ⟨f, hm, rfl⟩)
  unfold histOf
  rw [key l.temp 4 (by simp [Layout.fields]), key l.pres 1 (by simp [Layout.fields]),
    key l.period 1 (by simp [Layout.fields]), key l.cksum 2 (by simp [Layout.fields])]
  congr 1
  · exact map_congr fun f hm => by rw [e1 f hm]
  · exact map_congr fun f hm => by rw [e2 f hm]
  · exact map_congr fun f hm => by rw [e3 f hm]

/-- The config frame is read up to byte 231 (R42). -/
theorem configOf_take {m : Nat} (hm : 232 ≤ m) (r : List Byte) : configOf (r.take m) = configOf r := by
  have h1 : ∀ a, a + 1 ≤ 232 → byteAt (r.take m) a = byteAt r a := fun a h => by
    simp only [byteAt, memRead_take r m a 1 (by omega)]
  have h2 : ∀ a, a + 2 ≤ 232 → u16At (r.take m) a = u16At r a := fun a h => by
    simp only [u16At, memRead_take r m a 2 (by omega)]
  have h4 : ∀ a, a + 4 ≤ 232 → b32At (r.take m) a = b32At r a := fun a h => by
    simp only [b32At, memRead_take r m a 4 (by omega)]
  have e1 : ∀ i : Fin 15, u16At (r.take m) (2 * i.val) = u16At r (2 * i.val) := fun i => h2 _ (by omega)
  have e2 : ∀ i : Fin 16, b32At (r.take m) (30 + 4 * i.val) = b32At r (30 + 4 * i.val) := fun i => h4 _ (by omega)
  have e3 : ∀ i : Fin 16, b32At (r.take m) (94 + 4 * i.val) = b32At r (94 + 4 * i.val) := fun i => h4 _ (by omega)
  have e4 : ∀ i : Fin 16, b32At (r.take m) (158 + 4 * i.val) = b32At r (158 + 4 * i.val) := fun i => h4 _ (by omega)
  simp only [configOf, e1, e2, e3, e4, h4 222 (by omega), h4 226 (by omega), h1 230 (by omega), h1 231 (by omega)]

/-- The boundaries that pass (R68). -/
theorem checkBoundaries_none {f : Nat} {l : List Int} : checkBoundaries f l = none ↔ ∀ v ∈ l, 0 ≤ v ∧ v ≤ 65535 := by
  induction l generalizing f with
  | nil => simp [checkBoundaries]
  | cons x t ih =>
    simp only [checkBoundaries]
    split
    · simp; intros; omega
    · rw [ih]; simp; intros; omega


/-- The first boundary that fails (R68). -/
theorem checkBoundaries_first {f : Nat} {l : List Int} {i : Nat} (hi : i < l.length)
    (h : ∀ j (hj : j < i), 0 ≤ l[j] ∧ l[j] ≤ 65535)
   (hb : l[i] < 0 ∨ 65535 < l[i]) : checkBoundaries f l = some (.range (BitVec.ofNat 6 (f+i)) l[i]) := by
  induction l generalizing f i with
  | nil => simp at hi
  | cons x t ih =>
    cases i with
    | zero => simp only [checkBoundaries]; rw [if_pos (by simpa using hb)]; simp
    | succ i =>
      have h0 := h 0 (by omega)
      simp at h0
      simp only [checkBoundaries]; rw [if_neg (by omega)]
      rw [ih (f := f+1) (i := i) (by simpa using hi) (fun j hj => by simpa using h (j+1) (by omega)) (by simpa using hb)]
      simp only [List.getElem_cons_succ]; rw [show f + 1 + i = f + (i + 1) by omega]

end Machine

end Sys2Proof
end

