-- ==== Sys2Proof/Laws/PerInstr.lean ====
section
/-! SUPPORT. Statements made per operation. -/

namespace Sys2Proof.Laws.RequestRoundTrip

/-- The operand registers that present an operation are read back as that operation (R9, R55, R56). -/
def Statement (i : Instr) : Prop := decodeRequest i.request = .instr i

theorem openSession : Statement .openSession := rfl
theorem laserOn : Statement .laserOn := rfl
theorem laserOff : Statement .laserOff := rfl
theorem fanOn : Statement .fanOn := rfl
theorem fanOff : Statement .fanOff := rfl
theorem setFanPower (param : Int) : Statement (.setFanPower param) := rfl
theorem setLaserPower (param : Int) : Statement (.setLaserPower param) := rfl
theorem readHistogram : Statement .readHistogram := rfl
theorem readConfig : Statement .readConfig := rfl
theorem writeConfig (cfgw : ConfigW) : Statement (.writeConfig cfgw) := rfl
theorem saveConfig : Statement .saveConfig := rfl
theorem validate : Statement .validate := rfl
theorem binbound (idx : Int) : Statement (.binbound idx) := rfl
theorem close : Statement .close := rfl

end Sys2Proof.Laws.RequestRoundTrip
end

