-- ==== Sys2Proof/Tests/Slice0.lean ====
section
/-! SUPPORT. Tests: what WellFormed refuses, words written out from the spec's encodings, one step per operation, and a witness for
the hypotheses of every statement. Expected values are those of spec/95_test_vectors.md unless a comment says otherwise. -/

namespace Sys2Proof.Tests

open Sys2Proof.Machine Sys2Proof.Expect

/-! ## Fixtures -/

/-- The signature of L2.7, "OPC-N2 FirmwareVer=OPC-018.2" in ASCII. -/
def signature : List Byte :=
  [0x4F, 0x50, 0x43, 0x2D, 0x4E, 0x32, 0x20, 0x46, 0x69, 0x72, 0x6D, 0x77, 0x61, 0x72, 0x65, 0x56, 0x65, 0x72, 0x3D,
   0x4F, 0x50, 0x43, 0x2D, 0x30, 0x31, 0x38, 0x2E, 0x32]

def spaces (n : Nat) : List Byte := List.replicate n 0x20

def zeros (n : Nat) : List Byte := List.replicate n 0

/-- The defaults with the signature of L2.7 and a settle number for every kind. -/
def params : Params := defaultParams [⟨signature, .v18_2⟩] fun _ => 7

theorem test_params_wf : params.wf = true := by decide

def cfg : Cfg := ⟨params, test_params_wf⟩

/-- The same with `STRICT_LEN`. -/
theorem test_strict_wf : ({ params with strictLen := true } : Params).wf = true := by decide

def strictCfg : Cfg := ⟨{ params with strictLen := true }, test_strict_wf⟩

/-- A state after a handshake (P1), with what the transport will answer. -/
def ready (a : List Answer) : State :=
  { State.resetWith cfg with
    session := .ready, layout := some .v18_2, infoPresent := true
    info := some { raw := signature ++ spaces 32, lo := 0, hi := 28 }
    xferCount := 1, bus := [{ out := [0x3F], settle := 7, expected := 60 }], answers := a }

/-- Uninitialized, with what the transport will answer. -/
def fresh (a : List Answer) : State := { State.resetWith cfg with answers := a }

/-- The frame of L1.2, `BIN` = 10, 5, 0, ... with a checksum below 256. -/
def frame (cksum : Byte) : List Byte := [0x0A, 0, 0x05, 0] ++ zeros 50 ++ [cksum, 0] ++ zeros 12

def hist (cksum : Byte) : Hist := histOf layoutV18_2 (frame cksum)

/-- The record of L2.3 at the fields the tests look at: `BB[i] = 100(i+1)`, `BB[14] = 65535`, `SFR`, the DACs. -/
def record : ConfigW :=
  { ConfigW.zero with
    bb := Vector.ofFn fun i => if i.val = 14 then 65535 else 100 * (i.val + 1)
    sfr := 0x40866666, laserDac := 150, fanDac := 255 }

/-- Frame C1 of L2.5 at those fields. -/
def image : List Byte :=
  [0x64, 0, 0xC8, 0, 0x2C, 0x01, 0x90, 0x01, 0xF4, 0x01, 0x58, 0x02, 0xBC, 0x02, 0x20, 0x03, 0x84, 0x03, 0xE8, 0x03,
   0x4C, 0x04, 0xB0, 0x04, 0x14, 0x05, 0x78, 0x05, 0xFF, 0xFF] ++ zeros 196 ++ [0x66, 0x66, 0x86, 0x40, 0x96, 0xFF]

/-- The next state, where there is one. -/
def nextOf (o : Host.Outcome State Fault Refusal) : Option State :=
  match o with
  | .next t => some t
  | .fault _ => none
  | .refused _ => none

/-- The command bytes of the latest exchange. -/
def lastSent (s : State) : List Byte := (s.bus.headD { out := [], settle := 0, expected := 0 }).out

/-! ## WellFormed refuses an ill-formed term for each check -/

theorem test_wf_power_too_wide : Instr.wf 10 (.setFanPower 512) = false ∧ Instr.wf 10 (.setLaserPower (-513)) = false := by
  decide
theorem test_wf_index_too_wide : Instr.wf 10 (.binbound 512) = false := by decide
theorem test_wf_boundary_too_wide : Instr.wf 10 (.writeConfig { record with bb := record.bb.set 3 512 }) = false := by decide
theorem test_wf_dac_too_wide :
    Instr.wf 10 (.writeConfig { ConfigW.zero with laserDac := 512 }) = false ∧
    Instr.wf 10 (.writeConfig { ConfigW.zero with fanDac := -513 }) = false := by decide
theorem test_wf_operands_in_width :
    Instr.wf 10 (.setFanPower 511) = true ∧ Instr.wf 10 (.binbound (-512)) = true ∧ Instr.wf 32 (.writeConfig record) = true := by
  decide
theorem test_wf_lead_prefix_refused :
    ({ params with fixed := { defaultFixed with laserOff := [0x02] } } : Params).leadsPrefixFree = false ∧
    ({ params with fixed := { defaultFixed with laserOn := [] } } : Params).leadsPrefixFree = false := by decide
theorem test_wf_short_lengths_refused :
    ({ params with histLen := 67 } : Params).lengthsCover = false ∧ ({ params with cfgLen := 231 } : Params).lengthsCover = false ∧
    ({ params with ackPos := 1 } : Params).lengthsCover = false ∧ ({ params with infoLen := 0 } : Params).lengthsCover = false := by
  decide
theorem test_wf_unknown_layout_refused : ({ params with sigs := [⟨signature, .other 1⟩] } : Params).sigsKnown = false := by decide
theorem test_wf_signatures_refused :
    ({ params with sigs := [⟨[], .v18_2⟩] } : Params).sigsClean = false ∧
    ({ params with sigs := [⟨0x20 :: signature, .v18_2⟩] } : Params).sigsClean = false ∧
    ({ params with sigs := [⟨signature ++ [0x0A], .v18_2⟩] } : Params).sigsClean = false ∧
    ({ params with sigs := [⟨signature, .v18_2⟩, ⟨signature, .other 1⟩] } : Params).sigsClean = false := by decide
theorem test_wf_layout_outside_frame_refused :
    ({ params with moreLayouts := [(1, { layoutV18_2 with cksum := ⟨67, 2⟩ })] } : Params).layoutsFit = false ∧
    ({ params with moreLayouts := [(1, { layoutV18_2 with temp := ⟨0, 2⟩ })] } : Params).layoutsFit = false := by decide
theorem test_wf_capacities_refused :
    ({ params with txMax := 232 } : Params).capacities = false ∧ ({ params with rxMax := 231 } : Params).capacities = false ∧
    ({ params with lenW := 8 } : Params).capacities = false ∧ ({ params with paramW := 9 } : Params).capacities = false := by decide
theorem test_wf_params_refused : ({ params with histLen := 67 } : Params).wf = false := by decide

/-! ## Words written out from R60 and R61 -/

theorem test_decode_OPEN : cfg.decodeCommand [0b00111111] = .instr .openSession := by decide
theorem test_decode_LASER_ON : cfg.decodeCommand [0b00000011, 0b00000010] = .instr .laserOn := by decide
theorem test_decode_LASER_OFF : cfg.decodeCommand [0b00000011, 0b00000011] = .instr .laserOff := by decide
theorem test_decode_FAN_ON : cfg.decodeCommand [0b00000011, 0b00000100] = .instr .fanOn := by decide
theorem test_decode_FAN_OFF : cfg.decodeCommand [0b00000011, 0b00000101] = .instr .fanOff := by decide
theorem test_decode_SET_FAN_POWER :
    cfg.decodeCommand [0b01000010, 0b00000000, 0b10000000] = .instr (.setFanPower 128) := by decide
theorem test_decode_SET_LASER_POWER :
    cfg.decodeCommand [0b01000010, 0b00000001, 0b11111111] = .instr (.setLaserPower 255) := by decide
theorem test_decode_READ_HISTOGRAM : cfg.decodeCommand [0b00110000] = .instr .readHistogram := by decide
theorem test_decode_READ_CONFIG : cfg.decodeCommand [0b00111100] = .instr .readConfig := by decide
theorem test_decode_WRITE_CONFIG : cfg.decodeCommand (0b00111010 :: image) = .instr (.writeConfig record) := by decide +kernel
theorem test_decode_SAVE_CONFIG :
    cfg.decodeCommand [0b01000011, 0b00111111, 0b00111100, 0b00111111, 0b00111100, 0b01000011] = .instr .saveConfig := by decide
theorem test_decode_VALIDATE : cfg.decode (.select 0b1011 0) = .instr .validate := by decide
theorem test_decode_BINBOUND : cfg.decode (.select 0b1100 14) = .instr (.binbound 14) := by decide
theorem test_decode_CLOSE : cfg.decode (.select 0b1101 0) = .instr .close := by decide

/-- R62 (a), (b). -/
theorem test_decode_rejects :
    cfg.decodeCommand [] = .rejected .noCommand ∧ cfg.decodeCommand [0x03, 0x06] = .rejected .noCommand ∧
    cfg.decodeCommand [0x30, 0x00] = .rejected (.wrongLength .readHistogram 2) ∧
    cfg.decodeCommand [0x42, 0x00] = .rejected (.wrongLength .setFanPower 2) ∧
    cfg.decode (.select 0b1110 0) = .rejected (.notLocal 14) ∧
    decodeRequest { op := 14, param := 0, idx := 0, cfgw := .zero } = .rejected (.noOperation 14) := by decide

/-- Every row of the opcode table, its bits as the table numbers them; local rows by their 4-bit `OP`. -/
theorem test_table_words :
    decodeTableWord 8 0x3F = some .openSession ∧ decodeTableWord 16 0x0302 = some .laserOn ∧
    decodeTableWord 16 0x0303 = some .laserOff ∧ decodeTableWord 16 0x0304 = some .fanOn ∧
    decodeTableWord 16 0x0305 = some .fanOff ∧ decodeTableWord 16 0x4200 = some (.setFanPower 0) ∧
    decodeTableWord 16 0x4201 = some (.setLaserPower 0) ∧ decodeTableWord 8 0x30 = some .readHistogram ∧
    decodeTableWord 8 0x3C = some .readConfig ∧ decodeTableWord 48 0x433F3C3F3C43 = some .saveConfig ∧
    decodeTableWord 8 11 = some .validate ∧ decodeTableWord 8 12 = some (.binbound 0) ∧
    decodeTableWord 8 13 = some .close := by decide

/-- The row whose 232 operand bytes the table leaves out. -/
theorem test_table_word_WRITE_CONFIG : decodeTableWord 8 0x3A = some (.writeConfig .zero) := by decide +kernel

/-- The very next step after reset runs the placed operation: the error each ends in, by R105 and R107. -/
theorem test_placed_words_run :
    ([(8, 0x3F), (16, 0x0302), (16, 0x4201), (48, 0x433F3C3F3C43), (8, 11), (8, 13), (8, 14)].map fun x =>
      (nextOf (step (State.reset.withFetchWord x.1 x.2))).map fun t => (t.op.toNat, t.err)) =
    [some (0, .transport), some (1, .notReady), some (6, .notReady), some (10, .notReady), some (11, .notReady),
     some (13, .none), some (15, .notReady)] := by decide

/-! ## Register codes (R17, R18, R128) -/

theorem test_session_codes :
    [Session.uninitialized, .handshaking, .ready, .firmwareFailed, .closed].map Session.code = [0, 1, 2, 3, 4] := by decide
theorem test_power_codes : [Power.unknown, .off, .on].map Power.code = [0, 1, 2] := by decide
theorem test_error_codes :
    [ErrCode.none, .transport, .framing, .firmware, .checksum, .range, .closed, .notReady].map ErrCode.code =
    [0, 1, 2, 3, 4, 5, 6, 7] := by decide

/-! ## Byte order (L2.1) and the command image (L2.3) -/

theorem test_memRead :
    memRead [0x34, 0x12] 0 2 = 0x1234 ∧ memRead [0, 0xEF, 0xBE, 0xAD, 0xDE] 1 4 = 0xDEADBEEF ∧ memRead [0x7F] 0 1 = 127 := by decide
theorem test_memWrite : memWrite [1, 2, 3, 4, 5, 6] 1 4 0x3F800000 = [1, 0x00, 0x00, 0x80, 0x3F, 6] := by decide
theorem test_packConfig : packConfig record = image := by decide +kernel

/-! ## One step of each operation -/

/-- L2.7, second row: whitespace on both sides. -/
theorem test_OPEN_accepted :
    let t := nextOf (exec .openSession (fresh [.bytes (spaces 2 ++ [0x09] ++ signature ++ [0x0D, 0x0A] ++ spaces 27)]))
    t.map (fun t => (t.err, t.session, t.xferCount)) = some (.none, .ready, 1) ∧
    t.map (fun t => (t.layout, t.info.map fun i => [i.lo, i.hi])) = some (some .v18_2, some [3, 31]) := by decide

/-- L2.7, fourth row: NUL is not whitespace. -/
theorem test_OPEN_unknown_firmware :
    let t := nextOf (exec .openSession (fresh [.bytes (signature ++ zeros 32)]))
    t.map (fun t => (t.err, t.session, t.infoPresent, t.errSiglen)) = some (.firmware, .firmwareFailed, false, 60) ∧
    t.map (fun t => (t.layout, t.errSig)) = some (none, some (signature ++ zeros 32)) := by decide

/-- L1.4. -/
theorem test_LASER_ON :
    (nextOf (exec .laserOn (ready [.bytes [0xF3]]))).map (fun t => (lastSent t, t.err, t.ack, t.laser, t.fan, t.xferCount)) =
    some ([0x03, 0x02], .none, true, .on, .unknown, 2) := by decide

/-- R111; a transport failure moves nothing (R129). -/
theorem test_LASER_OFF :
    ([Answer.bytes [0xF3], .fail].map fun a => (nextOf (exec .laserOff { ready [a] with laser := .on, ack := true })).map
      fun t => (lastSent t, t.err, t.ack, t.laser)) =
    [some ([0x03, 0x03], .none, true, .off), some ([0x03, 0x03], .transport, false, .on)] := by decide

/-- L2.6, every row under `STRICT_LEN = false`. -/
theorem test_FAN_ON :
    ([Answer.bytes [0xF3], .bytes [0x00], .bytes [0xF2], .bytes [0xF3, 0x00], .bytes [0x00, 0xF3], .bytes [], .fail].map fun a =>
      (nextOf (exec .fanOn { ready [a] with ack := true })).map fun t => (t.err, t.ack, t.fan, t.xferCount)) =
    [some (.none, true, .on, 2), some (.none, false, .unknown, 2), some (.none, false, .unknown, 2), some (.none, true, .on, 2),
     some (.none, false, .unknown, 2), some (.framing, false, .unknown, 2), some (.transport, false, .unknown, 2)] := by decide

/-- L2.6, last row: `STRICT_LEN = true`. -/
theorem test_FAN_ON_strict :
    (nextOf (exec .fanOn { ready [.bytes [0xF3, 0x00]] with cfg := strictCfg })).map
      (fun t => (t.err, t.ack, t.fan, t.errExpected, t.errActual)) = some (.framing, false, .unknown, 1, 2) := by decide

theorem test_FAN_OFF :
    (nextOf (exec .fanOff (ready [.bytes [0xF3]]))).map (fun t => (lastSent t, t.ack, t.fan, t.laser)) =
    some ([0x03, 0x05], true, .off, .unknown) := by decide

/-- L2.2 and L1.1. -/
theorem test_SET_FAN_POWER :
    ((nextOf (exec (.setFanPower 254) (ready [.bytes [0xF3]]))).map fun t => (lastSent t, t.ack, t.fan)) =
      some ([0x42, 0x00, 0xFE], true, .unknown) ∧
    ((nextOf (exec (.setFanPower 256) (ready [.bytes [0xF3]]))).map fun t => (t.err, t.errField, t.errValue, t.xferCount)) =
      some (.range, 0, 256, 1) := by decide

/-- L2.2 and L1.1. -/
theorem test_SET_LASER_POWER :
    ((nextOf (exec (.setLaserPower 128) (ready [.bytes [0x00]]))).map fun t => (lastSent t, t.err, t.ack)) =
      some ([0x42, 0x01, 0x80], .none, false) ∧
    ((nextOf (exec (.setLaserPower (-1)) (ready [.bytes [0xF3]]))).map fun t => (t.err, t.errField, t.errValue, t.xferCount)) =
      some (.range, 0, -1, 1) := by decide

/-- L1.2 (b), the source's 86-byte frame. -/
theorem test_READ_HISTOGRAM :
    let t := nextOf (exec .readHistogram (ready [.bytes (frame 15 ++ zeros 18)]))
    t.map (fun t => (t.err, t.valid, t.histPresent)) = some (.none, true, true) ∧
    t.map (fun t => t.hist.map fun h => [h.bin[0], h.bin[1], h.bin[2], h.cksum]) = some (some [10, 5, 0, 15]) := by
  decide +kernel

/-- L1.5 and L1.3. -/
theorem test_READ_HISTOGRAM_errors :
    ((nextOf (exec .readHistogram (ready [.bytes (frame 16)]))).map fun t => (t.err, t.valid, t.hist)) =
      some (.checksum, false, some (hist 16)) ∧
    ((nextOf (exec .readHistogram (ready [.bytes (zeros 40)]))).map fun t =>
      (t.err, t.errExpected, t.errActual, t.histPresent)) = some (.framing, 68, 40, false) := by decide +kernel

/-- L2.5. -/
theorem test_READ_CONFIG :
    let t := nextOf (exec .readConfig (ready [.bytes image]))
    t.map (fun t => (t.err, t.cfgPresent)) = some (.none, true) ∧
    t.map (fun t => t.cfgr.map fun c => ([c.bb[0], c.bb[14]], c.sfr, [c.laserDac, c.fanDac])) =
      some (some ([100, 65535], 0x40866666, [150, 255])) := by decide +kernel

/-- L2.3: the whole command; the first failure in check order. -/
theorem test_WRITE_CONFIG :
    ((nextOf (exec (.writeConfig record) (ready [.bytes [0xF3]]))).map fun t => (lastSent t, t.err, t.ack, t.cfgPresent)) =
      some (0x3A :: image, .none, true, false) := by decide +kernel
theorem test_WRITE_CONFIG_range :
    (nextOf (exec (.writeConfig { record with bb := (record.bb.set 7 65536).set 2 (-5), fanDac := 300 })
      (ready [.bytes [0xF3]]))).map (fun t => (t.err, t.errField, t.errValue, t.xferCount)) = some (.range, 4, -5, 1) := by decide

theorem test_SAVE_CONFIG :
    (nextOf (exec .saveConfig (ready [.bytes [0xF3]]))).map (fun t => (lastSent t, t.err, t.ack)) =
    some ([0x43, 0x3F, 0x3C, 0x3F, 0x3C, 0x43], .none, true) := by decide

/-- R122; L2.9: VALIDATE runs in Closed. -/
theorem test_VALIDATE :
    ((nextOf (exec .validate (fresh []))).map (·.err)) = some .notReady ∧
    ((nextOf (exec .validate { fresh [] with session := .closed, histPresent := true, hist := some (hist 15) })).map
      fun t => (t.err, t.valid, t.session)) = some (.none, true, .closed) := by decide +kernel

/-- L2.5. -/
theorem test_BINBOUND :
    ([0, 14, 15, -1].map fun i => (nextOf (exec (.binbound i) { fresh [] with cfgPresent := true, cfgr := some (configOf image) })).map
      fun t => (t.err, t.errField, t.errValue, t.bbout)) =
    [some (.none, 0, 0, some 100), some (.none, 0, 0, some 65535), some (.range, 1, 15, none), some (.range, 1, -1, none)] := by
  decide

/-- L2.9, last row. -/
theorem test_CLOSE :
    ([Session.uninitialized, .ready, .firmwareFailed, .closed].map fun q =>
      (nextOf (exec .close { ready [] with session := q })).map fun t => (t.err, t.session, t.xferCount)) =
    List.replicate 4 (some (.none, .closed, 1)) := by decide

/-- L2.8: the sums that wrap. -/
theorem test_sum16 :
    sum16 (Vector.replicate 16 65535) = 65520 ∧ sum16 (Vector.replicate 16 4096) = 0 ∧
    sum16 (Vector.ofFn fun i => BitVec.ofNat 16 (4096 * i.val)) = 32768 := by decide

/-! ## Witnesses: concrete states and operands that meet each statement's hypotheses, clause by clause at the boundaries -/

theorem next_of_any {o : Host.Outcome State Fault Refusal} {p : State → Bool} (h : (nextOf o).any p = true) :
    ∃ t, o = .next t ∧ p t = true := by
  cases o with
  | next t => exact ⟨t, rfl, by simpa [nextOf] using h⟩
  | fault f => simp [nextOf] at h
  | refused r => simp [nextOf] at h

/-- A state that meets the invariant in Ready, with an operation to come. -/
def running (i : Instr) (a : List Answer) : State := { ready a with requests := [i.request] }

theorem running_inv (i : Instr) (a : List Answer) : Inv (running i a) where
  buffers := ⟨rfl, rfl, rfl, rfl, rfl, rfl⟩
  presence := ⟨rfl, rfl, rfl, nofun⟩
  valid := ⟨nofun, fun ⟨_, h, _⟩ => nomatch h⟩
  session := ⟨nofun, fun _ => ⟨rfl, rfl⟩, fun _ => .inl rfl, fun _ => rfl⟩
  info := by
    refine ⟨rfl, fun x hx => ?_⟩
    cases hx
    refine ⟨rfl, Nat.zero_le _, show 28 ≤ 60 by omega, ?_, ⟨signature, .v18_2⟩, List.mem_singleton.mpr rfl, rfl, rfl⟩
    show ∀ b ∈ ([] : List Byte) ++ spaces 32, b ∈ cfg.ws
    decide
  error := ⟨fun _ => ⟨rfl, rfl⟩, nofun, fun _ => ⟨rfl, rfl⟩, nofun, fun _ => ⟨rfl, rfl⟩, nofun⟩
  means := ⟨nofun, nofun, nofun⟩
  bus := by
    refine ⟨rfl, fun b hb => ?_⟩
    rw [List.mem_singleton.mp hb]
    exact ⟨.openSession, .info, rfl, rfl, rfl, rfl, rfl⟩

theorem test_witness_StepRunsThePresentedOperation :
    ∃ (s : State) (r : Request) (rest : List Request) (i : Instr), s.requests = r :: rest ∧ decodeRequest r = .instr i :=
  ⟨running (.binbound 14) [], Instr.request (.binbound 14), [], .binbound 14, rfl, rfl⟩

theorem test_witness_StepWithoutRequestChangesNothing : ∃ s : State, s.requests = [] := ⟨fresh [], rfl⟩

theorem test_witness_ResetLeavesTheSpecValues : ∃ (c : Cfg) (s : State), s = State.resetWith c := ⟨cfg, _, rfl⟩

theorem test_witness_EveryStepKeepsTheInvariant : ∃ s t : State, Inv s ∧ step s = .next t := by
  obtain ⟨t, h, -⟩ := next_of_any (o := step (running .laserOn [.bytes [0xF3]])) (p := fun t => t.ack) (by decide)
  exact ⟨_, t, running_inv _ _, h⟩

/-- Both kinds of state: one whose transport answers, one whose transport does not and whose step stops. -/
theorem test_witness_EveryStepEndsIfTheTransportAnswers :
    (∃ s : State, Inv s ∧ s.answers ≠ []) ∧ (∃ (s : State) (f : Fault), Inv s ∧ step s = .fault f) :=
  ⟨⟨running .readHistogram [.fail], running_inv _ _, by decide⟩, ⟨running .laserOn [], .transportSilent, running_inv _ _, rfl⟩⟩

theorem test_witness_EncodedOperationsDecodeBack :
    checkOperand (Instr.operand (.setFanPower 0)) = none ∧ checkOperand (Instr.operand (.setLaserPower 255)) = none ∧
    checkOperand (Instr.operand (.writeConfig record)) = none ∧ checkOperand (Instr.operand (.binbound 14)) = none := by
  decide

theorem test_witness_DecodedBytesAreTheCommandOfTheOperation :
    ∃ (c : Cfg) (s : List Byte) (i : Instr), c.decodeCommand s = .instr i :=
  ⟨cfg, [0x42, 0x00, 0x80], .setFanPower 128, by decide⟩

theorem test_witness_CommandStreamsReadBackInOneWay :
    ∃ (c : Cfg) (i j : Instr) (k l : CmdKind) (a b : List Byte), i.kind = some k ∧ j.kind = some l ∧
      checkOperand i.operand = none ∧ checkOperand j.operand = none ∧
      c.command k i.operand ++ a = c.command l j.operand ++ b :=
  ⟨cfg, .setFanPower 0, .setFanPower 0, .setFanPower, .setFanPower, [0x30], [0x30], rfl, rfl, by decide, by decide, rfl⟩

theorem record_inRange : InRange record := by
  unfold InRange
  decide

theorem zero_inRange : InRange .zero := by
  unfold InRange
  decide

theorem test_witness_ConfigImageReadsBack : InRange record ∧ InRange .zero := ⟨record_inRange, zero_inRange⟩

theorem test_witness_MemReadIsLittleEndian :
    (2 + 1 ≤ (zeros 3).length) ∧ (1 + 2 ≤ (zeros 3).length) ∧ (0 + 4 ≤ (zeros 4).length) := by decide

theorem test_witness_MemWriteThenMemRead :
    ∀ n : Nat, n = 1 ∨ n = 2 ∨ n = 4 →
      ∃ (b : List Byte) (a v i j : Nat), v < 256 ^ n ∧ a + n ≤ b.length ∧ i < n ∧ (j < a ∨ a + n ≤ j) := by
  rintro n (rfl | rfl | rfl)
  · exact ⟨zeros 3, 2, 255, 0, 1, by decide⟩
  · exact ⟨zeros 3, 1, 65535, 1, 3, by decide⟩
  · exact ⟨zeros 4, 0, 4294967295, 3, 4, by decide⟩

theorem test_witness_LayoutFieldsLieInsideTheFrame :
    ∃ (c : Cfg) (id : LayoutId) (l : Layout), c.layoutOf id = some l ∧ (l.cksum, 2) ∈ l.fields :=
  ⟨cfg, .v18_2, layoutV18_2, rfl, by decide⟩

/-- One acknowledge byte is the shortest accepted frame of each toggle. -/
theorem test_witness_TogglesComplete :
    ∃ (s : State) (r : List Byte) (rest : List Answer), s.session = .ready ∧ s.answers = .bytes r :: rest ∧
      Accepted s.cfg .laserOn r ∧ Accepted s.cfg .laserOff r ∧ Accepted s.cfg .fanOn r ∧ Accepted s.cfg .fanOff r :=
  ⟨ready [.bytes [0xF3]], [0xF3], [], rfl, rfl, ⟨by decide, by decide⟩, ⟨by decide, by decide⟩, ⟨by decide, by decide⟩,
    ⟨by decide, by decide⟩⟩

theorem test_witness_PowerCommandsComplete :
    ∃ (s : State) (r : List Byte) (rest : List Answer), s.session = .ready ∧ s.answers = .bytes r :: rest ∧
      Accepted s.cfg .setFanPower r ∧ Accepted s.cfg .setLaserPower r ∧
      ∀ p : Int, p = 0 ∨ p = 255 → 0 ≤ p ∧ p ≤ 255 :=
  ⟨ready [.bytes [0x00]], [0x00], [], rfl, rfl, ⟨by decide, by decide⟩, ⟨by decide, by decide⟩, by omega⟩

theorem test_witness_WriteAndSaveConfigComplete :
    ∃ (s : State) (r : List Byte) (rest : List Answer) (c : ConfigW), s.session = .ready ∧ s.answers = .bytes r :: rest ∧
      InRange c ∧ Accepted s.cfg .writeConfig r ∧ Accepted s.cfg .saveConfig r :=
  ⟨ready [.bytes [0xF3]], [0xF3], [], record, rfl, rfl, record_inRange, ⟨by decide, by decide⟩, ⟨by decide, by decide⟩⟩

theorem frame_good : ChecksumHolds (hist 15) := by
  unfold ChecksumHolds
  decide +kernel

theorem frame_bad : ¬ ChecksumHolds (hist 16) := by
  unfold ChecksumHolds
  decide +kernel

/-- A good and a wrong checksum, in frames of exactly `HIST_LEN` bytes. -/
theorem test_witness_ReadHistogramCompletes :
    ∀ b : Byte, b = 15 ∨ b = 16 →
      ∃ (s : State) (r : List Byte) (rest : List Answer) (id : LayoutId) (l : Layout), s.session = .ready ∧
        s.layout = some id ∧ s.cfg.layoutOf id = some l ∧ s.answers = .bytes r :: rest ∧ Accepted s.cfg .readHistogram r ∧
        (ChecksumHolds (histOf l r) ↔ b = 15) := by
  rintro b (rfl | rfl)
  · exact ⟨ready [.bytes (frame 15)], frame 15, [], .v18_2, layoutV18_2, rfl, rfl, rfl, rfl,
      ⟨by decide, by decide⟩, iff_of_true frame_good rfl⟩
  · exact ⟨ready [.bytes (frame 16)], frame 16, [], .v18_2, layoutV18_2, rfl, rfl, rfl, rfl,
      ⟨by decide, by decide⟩, iff_of_false frame_bad (by decide)⟩

theorem test_witness_HistogramFrameFields :
    ∃ (s : State) (r : List Byte) (rest : List Answer), s.session = .ready ∧ s.layout = some .v18_2 ∧
      s.answers = .bytes r :: rest ∧ Accepted s.cfg .readHistogram r :=
  ⟨ready [.bytes (frame 15)], frame 15, [], rfl, rfl, rfl, ⟨by decide, by decide⟩⟩

theorem test_witness_ReadConfigCompletes :
    ∃ (s : State) (r : List Byte) (rest : List Answer), s.session = .ready ∧ s.answers = .bytes r :: rest ∧
      Accepted s.cfg .readConfig r :=
  ⟨ready [.bytes image], image, [], rfl, rfl, ⟨by decide +kernel, by decide +kernel⟩⟩

/-- The signature at the start and at the end of the frame. -/
theorem test_witness_OpenCompletesOnAKnownSignature :
    ∀ pre post : List Byte, (pre, post) = ([], spaces 32) ∨ (pre, post) = (spaces 32, []) →
      ∃ (s : State) (r : List Byte) (rest : List Answer) (g : Signature), s.session = .uninitialized ∧
        s.answers = .bytes r :: rest ∧ Accepted s.cfg .info r ∧ g ∈ s.cfg.sigs ∧
        r.take s.cfg.infoLen = pre ++ g.bytes ++ post ∧ ∀ b ∈ pre ++ post, b ∈ s.cfg.ws := by
  rintro pre post (h | h) <;> cases h
  · exact ⟨fresh [.bytes (signature ++ spaces 32)], signature ++ spaces 32, [], ⟨signature, .v18_2⟩, rfl, rfl,
      ⟨by decide, by decide⟩, by decide, by decide, by decide⟩
  · exact ⟨fresh [.bytes (spaces 32 ++ signature)], spaces 32 ++ signature, [], ⟨signature, .v18_2⟩, rfl, rfl,
      ⟨by decide, by decide⟩, by decide, by decide, by decide⟩

/-- A record for each verdict, in a session that is closed and in one that is not. -/
theorem test_witness_ValidateCompletes :
    (∃ (s : State) (h : Hist), s.histPresent = true ∧ s.hist = some h ∧ ChecksumHolds h) ∧
    (∃ (s : State) (h : Hist), s.histPresent = true ∧ s.hist = some h ∧ ¬ ChecksumHolds h) :=
  ⟨⟨{ fresh [] with session := .closed, histPresent := true, hist := some (hist 15) }, hist 15, rfl, rfl, frame_good⟩,
    ⟨{ ready [] with histPresent := true, hist := some (hist 16) }, hist 16, rfl, rfl, frame_bad⟩⟩

/-- A state with a configuration, as READ_CONFIG leaves it. -/
def configured : State := { ready [] with cfgPresent := true, cfgr := some (configOf image) }

theorem test_witness_BinboundCompletes : ∃ (s : State) (c : ConfigR) (_ : Fin 15), s.cfgPresent = true ∧ s.cfgr = some c :=
  ⟨configured, configOf image, 14, rfl, rfl⟩

theorem test_witness_ClosedSessionRefusesBusOperations :
    ∀ i : Instr, i = .openSession ∨ i = .saveConfig → ∃ s : State, i.op.toNat ≤ 10 ∧ s.session = .closed := by
  rintro i (rfl | rfl) <;> exact ⟨{ ready [] with session := .closed }, by decide, rfl⟩

theorem test_witness_NotReadyOperationsChangeNothing :
    (∀ q : Session, q = .ready ∨ q = .firmwareFailed → ∃ s : State, s.session = q) ∧
    (∀ (i : Instr) (q : Session), i = .laserOn ∨ i = .saveConfig → q = .uninitialized ∨ q = .firmwareFailed →
      ∃ s : State, 1 ≤ i.op.toNat ∧ i.op.toNat ≤ 10 ∧ s.session = q) ∧
    (∃ s : State, s.histPresent = false) ∧ (∃ s : State, s.cfgPresent = false) ∧
    (∀ o : BitVec 4, o = 14 ∨ o = 15 → ∃ (s : State) (r : Request) (rest : List Request), s.requests = r :: rest ∧ r.op = o) := by
  refine ⟨fun q _ => ⟨{ ready [] with session := q }, rfl⟩, ?_, ⟨ready [], rfl⟩, ⟨ready [], rfl⟩, fun o _ =>
    ⟨{ ready [] with requests := [{ op := o, param := 0, idx := 0, cfgw := .zero }] }, _, [], rfl, rfl⟩⟩
  rintro i q (rfl | rfl) - <;> exact ⟨{ ready [] with session := q }, by decide, by decide, rfl⟩

theorem test_witness_PowerLevelOutOfRangeSendsNothing :
    (∃ s : State, s.session = .ready) ∧ ((-1 : Int) < 0 ∨ 255 < (-1 : Int)) ∧ ((256 : Int) < 0 ∨ 255 < (256 : Int)) ∧
    ((0 : Int) ≤ 0 ∧ (0 : Int) ≤ 255) ∧ ((0 : Int) ≤ 255 ∧ (255 : Int) ≤ 255) :=
  ⟨⟨ready [], rfl⟩, by decide⟩

/-- The first and the last boundary, each DAC, and a record in range, each at the nearest value outside or inside. -/
theorem test_witness_ConfigOutOfRangeReportsTheFirstField :
    (∃ s : State, s.session = .ready) ∧
    (∃ c : ConfigW, (∀ j : Fin 15, j < 0 → 0 ≤ c.bb[j] ∧ c.bb[j] ≤ 65535) ∧ (c.bb[(0 : Fin 15)] < 0 ∨ 65535 < c.bb[(0 : Fin 15)])) ∧
    (∃ c : ConfigW, (∀ j : Fin 15, j < 14 → 0 ≤ c.bb[j] ∧ c.bb[j] ≤ 65535) ∧ (c.bb[(14 : Fin 15)] < 0 ∨ 65535 < c.bb[(14 : Fin 15)])) ∧
    (∃ c : ConfigW, (∀ j : Fin 15, 0 ≤ c.bb[j] ∧ c.bb[j] ≤ 65535) ∧ (c.laserDac < 0 ∨ 255 < c.laserDac)) ∧
    (∃ c : ConfigW, (∀ j : Fin 15, 0 ≤ c.bb[j] ∧ c.bb[j] ≤ 65535) ∧ 0 ≤ c.laserDac ∧ c.laserDac ≤ 255 ∧
      (c.fanDac < 0 ∨ 255 < c.fanDac)) ∧
    (∃ c : ConfigW, InRange c) := by
  refine ⟨⟨ready [], rfl⟩, ⟨{ record with bb := record.bb.set 0 (-1) }, ?_⟩, ⟨{ record with bb := record.bb.set 14 65536 }, ?_⟩,
    ⟨{ record with laserDac := 256 }, ?_⟩, ⟨{ record with laserDac := 255, fanDac := -1 }, ?_⟩, ⟨record, record_inRange⟩⟩ <;>
    decide

theorem test_witness_BinboundOutOfRangeKeepsBbout :
    (∃ s : State, s.cfgPresent = true) ∧ ((-1 : Int) < 0 ∨ 14 < (-1 : Int)) ∧ ((15 : Int) < 0 ∨ 14 < (15 : Int)) :=
  ⟨⟨configured, rfl⟩, by decide⟩

/-- OPEN from Uninitialized and a bus operation in Ready. -/
theorem test_witness_TransportFailureKeepsTheSession :
    (∃ (i : Instr) (k : CmdKind) (s : State) (rest : List Answer), i.kind = some k ∧ Admitted i s ∧ s.answers = .fail :: rest ∧
      i = .openSession) ∧
    (∃ (i : Instr) (k : CmdKind) (s : State) (rest : List Answer), i.kind = some k ∧ Admitted i s ∧ s.answers = .fail :: rest ∧
      i ≠ .openSession) :=
  ⟨⟨.openSession, .info, fresh [.fail], [], rfl, ⟨rfl, .inl ⟨rfl, rfl⟩⟩, rfl, rfl⟩,
    ⟨.setFanPower 255, .setFanPower, ready [.fail], [], rfl, ⟨by decide, .inr ⟨by decide, rfl, rfl⟩⟩, rfl, by decide⟩⟩

/-- A frame one byte short, and under `STRICT_LEN` a frame one byte long. -/
theorem test_witness_BadFrameLengthDecodesNothing :
    (∃ (i : Instr) (k : CmdKind) (s : State) (r : List Byte) (rest : List Answer), i.kind = some k ∧ Admitted i s ∧
      s.answers = .bytes r :: rest ∧ ¬ Accepted s.cfg k r ∧ i = .openSession) ∧
    (∃ (i : Instr) (k : CmdKind) (s : State) (r : List Byte) (rest : List Answer), i.kind = some k ∧ Admitted i s ∧
      s.answers = .bytes r :: rest ∧ ¬ Accepted s.cfg k r ∧ s.cfg.rlen k < r.length) := by
  refine ⟨⟨.openSession, .info, fresh [.bytes (spaces 59)], spaces 59, [], rfl, ⟨rfl, .inl ⟨rfl, rfl⟩⟩, rfl, ?_, rfl⟩,
    ⟨.fanOn, .fanOn, { ready [.bytes [0xF3, 0x00]] with cfg := strictCfg }, [0xF3, 0x00], [], rfl,
      ⟨rfl, .inr ⟨by decide, rfl, rfl⟩⟩, rfl, ?_, by decide⟩⟩ <;> unfold Accepted <;> decide

/-- 60 bytes of spaces trim to the empty string, which is no signature (L2.7). -/
theorem test_witness_UnknownSignatureFailsTheSession :
    ∃ (s : State) (r : List Byte) (rest : List Answer), s.session = .uninitialized ∧ s.answers = .bytes r :: rest ∧
      Accepted s.cfg .info r ∧
      ∀ g ∈ s.cfg.sigs, ∀ pre post : List Byte, r.take s.cfg.infoLen = pre ++ g.bytes ++ post → ∃ b ∈ pre ++ post, b ∉ s.cfg.ws := by
  refine ⟨fresh [.bytes (spaces 60)], spaces 60, [], rfl, rfl, ⟨by decide, by decide⟩, ?_⟩
  intro g hg pre post h
  rw [List.mem_singleton.mp (show g ∈ [(⟨signature, .v18_2⟩ : Signature)] from hg)] at h
  have hm : (0x4F : Byte) ∈ (spaces 60).take 60 := by
    rw [show (spaces 60).take 60 = pre ++ signature ++ post from h]
    simp [signature]
  exact absurd hm (by decide)

theorem test_witness_ChecksumMismatchKeepsTheData :
    ∃ (i : Instr) (s t : State), exec i s = .next t ∧ t.err = .checksum := by
  obtain ⟨t, h, he⟩ := next_of_any (o := exec .readHistogram (ready [.bytes (frame 16)])) (p := fun t => t.err == .checksum)
    (by decide +kernel)
  exact ⟨_, _, t, h, by simpa using he⟩

theorem test_witness_ValidityIsTheVerdictOnTheRecord :
    (∃ (i : Instr) (s t : State), (i = .readHistogram ∨ i = .validate) ∧ exec i s = .next t ∧ t.err = .none) ∧
    (∃ (i : Instr) (s t : State), (i = .readHistogram ∨ i = .validate) ∧ exec i s = .next t ∧ t.err = .checksum) := by
  obtain ⟨t, h, he⟩ := next_of_any (o := exec .readHistogram (ready [.bytes (frame 15)])) (p := fun t => t.err == .none)
    (by decide +kernel)
  obtain ⟨u, h', he'⟩ := next_of_any
    (o := exec .validate { ready [] with histPresent := true, hist := some (hist 16) }) (p := fun t => t.err == .checksum)
    (by decide +kernel)
  exact ⟨⟨_, _, t, .inl rfl, h, by simpa using he⟩, ⟨_, _, u, .inr rfl, h', by simpa using he'⟩⟩

theorem test_witness_SilentTransportStopsTheExchange :
    (∃ (i : Instr) (s : State), Admitted i s ∧ i.kind.isSome = true ∧ s.answers = [] ∧ i = .openSession) ∧
    (∃ (i : Instr) (s : State), Admitted i s ∧ i.kind.isSome = true ∧ s.answers = [] ∧ i = .readConfig) :=
  ⟨⟨.openSession, fresh [], ⟨rfl, .inl ⟨rfl, rfl⟩⟩, rfl, rfl, rfl⟩,
    ⟨.readConfig, ready [], ⟨rfl, .inr ⟨by decide, rfl, rfl⟩⟩, rfl, rfl, rfl⟩⟩

theorem test_witness_ReadsWithoutValueStop :
    (∃ s : State, s.histPresent = true ∧ s.hist = none) ∧ (∃ s : State, s.cfgPresent = true ∧ s.cfgr = none) ∧
    ∀ l : Option LayoutId, l = none ∨ l = some (.other 1) → ∃ (s : State) (r : List Byte) (rest : List Answer),
      s.session = .ready ∧ s.answers = .bytes r :: rest ∧ Accepted s.cfg .readHistogram r ∧ s.layout = l ∧
      s.cfg.layoutOf (.other 1) = none :=
  ⟨⟨{ ready [] with histPresent := true }, rfl, rfl⟩, ⟨{ ready [] with cfgPresent := true }, rfl, rfl⟩, fun l _ =>
    ⟨{ ready [.bytes (frame 15)] with layout := l }, frame 15, [], rfl, rfl,
      (⟨by decide, by decide⟩ : Accepted cfg .readHistogram (frame 15)), rfl, rfl⟩⟩

/-- One next state for each condition of the statement. -/
theorem test_witness_ErrorRegistersDescribeTheLastOperation :
    ∃ (i : Instr) (s t : State), exec i s = .next t ∧ t.err ≠ .framing ∧ t.err ≠ .firmware ∧ t.err ≠ .range := by
  obtain ⟨t, h, he⟩ := next_of_any (o := exec .laserOn (fresh [])) (p := fun t => t.err == .notReady) (by decide)
  have he : t.err = .notReady := by simpa using he
  exact ⟨_, _, t, h, by simp [he], by simp [he], by simp [he]⟩

/-- LASER_ON, READ_HISTOGRAM and VALIDATE between them meet the condition of every clause. -/
theorem test_witness_OnlyTheWritersWrite :
    (∃ s t : State, exec .laserOn s = .next t) ∧ (∃ s t : State, exec .readHistogram s = .next t) ∧
    (∃ s t : State, exec .validate s = .next t) ∧
    (∀ k, Instr.kind .readHistogram = some k → k.response ≠ .ack) ∧ Instr.kind .validate = none := by
  obtain ⟨t, h, -⟩ := next_of_any (o := exec .laserOn (ready [.bytes [0xF3]])) (p := fun t => t.ack) (by decide)
  obtain ⟨u, h', -⟩ := next_of_any (o := exec .readHistogram (ready [.bytes (frame 15)])) (p := fun t => t.valid)
    (by decide +kernel)
  obtain ⟨v, h'', -⟩ := next_of_any (o := exec .validate (ready [])) (p := fun t => t.err == .notReady) (by decide)
  exact ⟨⟨_, t, h⟩, ⟨_, u, h'⟩, ⟨_, v, h''⟩, by decide, rfl⟩

theorem test_witness_FailedOperationsKeepTheResults :
    ∃ (i : Instr) (s t : State), exec i s = .next t ∧ t.err ≠ .none ∧ t.err ≠ .checksum := by
  obtain ⟨t, h, he⟩ := next_of_any (o := exec .readHistogram (ready [.bytes (zeros 40)])) (p := fun t => t.err == .framing)
    (by decide)
  have he : t.err = .framing := by simpa using he
  exact ⟨_, _, t, h, by simp [he], by simp [he]⟩

/-- Two steps, of which one made an exchange and one was refused for its range. -/
theorem test_witness_OneExchangePerBusOperation :
    (∃ (i : Instr) (s t : State), exec i s = .next t) ∧
    (∃ (n m : Nat) (s t : State), tally n s = some (m, t) ∧ n = 2 ∧ m = 1) := by
  obtain ⟨t, h, -⟩ := next_of_any (o := exec .laserOn (ready [.bytes [0xF3]])) (p := fun t => t.ack) (by decide)
  refine ⟨⟨_, _, t, h⟩, ?_⟩
  have hm : (tally 2 { ready [.bytes [0xF3]] with requests := [Instr.request (.setFanPower 256), Instr.request .laserOn] }).map
      Prod.fst = some 1 := by decide
  obtain ⟨⟨m, u⟩, hx, he⟩ := Option.map_eq_some_iff.mp hm
  exact ⟨2, m, _, u, hx, rfl, he⟩

theorem test_witness_AckIsTheDevicesAnswer :
    ∀ e : ErrCode, e = .none ∨ e = .transport ∨ e = .framing ∨ e = .closed ∨ e = .notReady ∨ e = .range →
      ∃ (i : Instr) (k : CmdKind) (s t : State), i.kind = some k ∧ k.response = .ack ∧ exec i s = .next t ∧ t.err = e := by
  have go : ∀ (p : Int) (s : State) (e : ErrCode), (nextOf (exec (.setFanPower p) s)).any (fun t => t.err == e) = true →
      ∃ (i : Instr) (k : CmdKind) (s t : State), i.kind = some k ∧ k.response = .ack ∧ exec i s = .next t ∧ t.err = e := by
    intro p s e h
    obtain ⟨t, h1, h2⟩ := next_of_any h
    exact ⟨.setFanPower p, .setFanPower, s, t, rfl, rfl, h1, by simpa using h2⟩
  rintro e (rfl | rfl | rfl | rfl | rfl | rfl)
  · exact go 255 (ready [.bytes [0xF3]]) _ (by decide)
  · exact go 0 (ready [.fail]) _ (by decide)
  · exact go 0 (ready [.bytes []]) _ (by decide)
  · exact go 0 { ready [] with session := .closed } _ (by decide)
  · exact go 256 (fresh []) _ (by decide)
  · exact go 256 (ready []) _ (by decide)

/-- Every session state occurs before and after an operation that ends. -/
theorem test_witness_SessionTransitions :
    (∀ q : Session, ∃ (i : Instr) (s t : State), exec i s = .next t ∧ s.session = q ∧ t.session = q) ∧
    (∃ (i : Instr) (s t : State), exec i s = .next t ∧ s.session = .uninitialized ∧ t.session = .ready) ∧
    (∃ (i : Instr) (s t : State), exec i s = .next t ∧ s.session = .uninitialized ∧ t.session = .firmwareFailed) ∧
    (∃ (i : Instr) (s t : State), exec i s = .next t ∧ s.session = .ready ∧ t.session = .closed) := by
  refine ⟨fun q => ?_, ?_, ?_, ?_⟩
  · exact ⟨.validate, { ready [] with session := q }, _, rfl, rfl, rfl⟩
  · obtain ⟨t, h, he⟩ := next_of_any (o := exec .openSession (fresh [.bytes (signature ++ spaces 32)]))
      (p := fun t => t.session == .ready) (by decide)
    exact ⟨_, _, t, h, rfl, by simpa using he⟩
  · obtain ⟨t, h, he⟩ := next_of_any (o := exec .openSession (fresh [.bytes (spaces 60)]))
      (p := fun t => t.session == .firmwareFailed) (by decide)
    exact ⟨_, _, t, h, rfl, by simpa using he⟩
  · exact ⟨.close, ready [], _, rfl, rfl, rfl⟩

theorem test_witness_OperandRegistersAreOnlyReadAtTheStart : ∃ (i : Instr) (s t : State), exec i s = .next t := by
  obtain ⟨t, h, -⟩ := next_of_any (o := exec (.setFanPower 200) (ready [.bytes [0xF3]])) (p := fun t => t.ack) (by decide)
  exact ⟨_, _, t, h⟩

theorem test_witness_SurplusBytesAreIgnored :
    (∃ (i : Instr) (k : CmdKind) (s : State) (r : List Byte), i.kind = some k ∧ Admitted i s ∧ s.cfg.strictLen = false ∧
      s.cfg.rlen k ≤ r.length ∧ i = .openSession) ∧
    (∃ (i : Instr) (k : CmdKind) (s : State) (r : List Byte), i.kind = some k ∧ Admitted i s ∧ s.cfg.strictLen = false ∧
      s.cfg.rlen k ≤ r.length ∧ i = .readHistogram) :=
  ⟨⟨.openSession, .info, fresh [], spaces 60, rfl, ⟨rfl, .inl ⟨rfl, rfl⟩⟩, rfl, by decide, rfl⟩,
    ⟨.readHistogram, .readHistogram, ready [], frame 15, rfl, ⟨rfl, .inr ⟨by decide, rfl, rfl⟩⟩, rfl, by decide, rfl⟩⟩

/-- The second answer is a failure byte: an accepted frame all the same. -/
theorem test_witness_RepeatedToggleIsSentAgain :
    ∃ (s : State) (a b : List Byte) (rest : List Answer), s.session = .ready ∧ s.answers = .bytes a :: .bytes b :: rest ∧
      Accepted s.cfg .laserOn a ∧ Accepted s.cfg .laserOn b :=
  ⟨ready [.bytes [0xF3], .bytes [0x00]], [0xF3], [0x00], [], rfl, rfl, ⟨by decide, by decide⟩, ⟨by decide, by decide⟩⟩

theorem test_witness_Sum16IsTheSumModulo65536 :
    ∃ bin other : Vector U16 16, bin.toList.Perm other.toList ∧ bin ≠ other :=
  ⟨(hist 15).bin, (Vector.replicate 16 0).set 0 5 |>.set 1 10, by decide +kernel, by decide +kernel⟩

/-- Bytes before, at and after the ends, and a string of whitespace alone. -/
theorem test_witness_TrimFindsTheEnds :
    trim defaultWs [0x20, 0x41, 0x20, 0x42, 0x0A] = (1, 4) ∧ trim defaultWs (spaces 3) = (3, 3) ∧ trim defaultWs [] = (0, 0) := by
  decide

end Sys2Proof.Tests
end

section
/-! PROOFS of the statements of spec/00_scope.md: the step (R3, R9), command streams (R7 (a), R54, R61) and
layouts inside their frames (R7 (b), R32, R45). -/

namespace Sys2Proof

open Sys2Proof.Machine Sys2Proof.Expect

/-! ## Field reads as numbers (R36, R37, R85) -/

@[simp] theorem toNat_byteAt (f : List Byte) (a : Nat) : (byteAt f a).toNat = memRead f a 1 := by
  have h : memRead f a 1 < 2 ^ 8 := memRead_lt f a 1
  rw [byteAt, BitVec.toNat_ofNat, Nat.mod_eq_of_lt h]

@[simp] theorem toNat_u16At (f : List Byte) (a : Nat) : (u16At f a).toNat = memRead f a 2 := by
  have h : memRead f a 2 < 2 ^ 16 := memRead_lt f a 2
  rw [u16At, BitVec.toNat_ofNat, Nat.mod_eq_of_lt h]

@[simp] theorem toNat_b32At (f : List Byte) (a : Nat) : (b32At f a).toNat = memRead f a 4 := by
  have h : memRead f a 4 < 2 ^ 32 := memRead_lt f a 4
  rw [b32At, BitVec.toNat_ofNat, Nat.mod_eq_of_lt h]

/-! ## Fields of a byte string that is a concatenation of runs -/

/-- The byte image of a run of 32-bit patterns. -/
def b32Image (l : List B32) : List Byte := l.flatMap fun v => leBytes 4 v.toNat

@[simp] theorem length_b32Image (l : List B32) : (b32Image l).length = 4 * l.length :=
  length_flatMap_const (fun v : B32 => leBytes 4 v.toNat) 4 (fun v => length_leBytes 4 v.toNat) l

@[simp] theorem length_flatMap_intBytes (w : Nat) (l : List Int) : (l.flatMap (intBytes w)).length = w * l.length :=
  length_flatMap_const _ w (length_intBytes w) l

/-- A field inside a run of patterns is the pattern written there. -/
theorem memRead_b32Image {f : List Byte} {a : Nat} (pre : List Byte) (l : List B32) (tail : List Byte) (i : Nat)
    (hi : i < l.length) (hf : f = pre ++ (b32Image l ++ tail)) (ha : a = pre.length + 4 * i) :
    memRead f a 4 = l[i].toNat := by
  have hv : l[i].toNat < 256 ^ 4 := l[i].isLt
  rw [hf, ha, b32Image, memRead_run _ 4 (fun v => length_leBytes 4 v.toNat) l pre tail i hi, leValue_leBytes,
    Nat.mod_eq_of_lt hv]

/-- A field inside a run of integers is the integer written there, where that is in range. -/
theorem memRead_intImage {f : List Byte} {a : Nat} (w : Nat) (pre : List Byte) (l : List Int) (tail : List Byte) (i : Nat)
    (hi : i < l.length) (h0 : 0 ≤ l[i]) (h1 : l[i] < 256 ^ w) (hf : f = pre ++ (l.flatMap (intBytes w) ++ tail))
    (ha : a = pre.length + w * i) : (memRead f a w : Int) = l[i] := by
  rw [hf, ha, memRead_run _ w (length_intBytes w) l pre tail i hi]
  exact leValue_intBytes w _ h0 h1

/-! ## The image of a configuration record read back (R42, R69) -/

/-- The levels that pass `check_power` (R67). -/
theorem checkPower_none {p : Int} : checkPower p = none ↔ 0 ≤ p ∧ p ≤ 255 := by
  unfold checkPower
  split <;> simp <;> omega

/-- The DAC levels that pass (R68). -/
theorem checkDac_none {f : BitVec 6} {v : Int} : checkDac f v = none ↔ 0 ≤ v ∧ v ≤ 255 := by
  unfold checkDac
  split <;> simp <;> omega

/-- The records that pass `check_config` are those in range (R68). -/
theorem checkConfig_none {c : ConfigW} : checkConfig c = none ↔ InRange c := by
  have hbb : checkBoundaries 2 c.bb.toList = none ↔ ∀ i : Fin 15, 0 ≤ c.bb[i] ∧ c.bb[i] ≤ 65535 := by
    rw [checkBoundaries_none]
    exact ⟨fun h i => h _ (by simp), fun h v hv => by
      obtain ⟨i, hi, rfl⟩ := Vector.mem_iff_getElem.mp (Vector.mem_toList_iff.mp hv)
      exact h ⟨i, hi⟩⟩
  rw [InRange, ← hbb, ← and_assoc (a := 0 ≤ c.laserDac), ← checkDac_none (f := 17), ← checkDac_none (f := 18),
    checkConfig]
  cases checkBoundaries 2 c.bb.toList <;> cases checkDac 17 c.laserDac <;> simp

/-- The image of a record followed by `tail`, as runs of fields in the order of R42. -/
theorem packConfig_append (c : ConfigW) (tail : List Byte) :
    packConfig c ++ tail =
      c.bb.toList.flatMap (intBytes 2) ++ (b32Image (c.bpv.toList ++ (c.bpd.toList ++ (c.bsvw.toList ++ [c.gsc, c.sfr]))) ++
        ([c.laserDac, c.fanDac].flatMap (intBytes 1) ++ tail)) := by
  simp [packConfig, b32Image]

section Fields

variable {c : ConfigW} (tail : List Byte)

/-- Pattern `i` of the 50 that lie in one run from offset 30 on: `BPV`, `BPD`, `BSVW`, `GSC`, `SFR` (R42). -/
theorem memRead_packConfig_b32 {a : Nat} (i : Nat) (hi : i < 50) (ha : a = 30 + 4 * i) :
    memRead (packConfig c ++ tail) a 4 =
      ((c.bpv.toList ++ (c.bpd.toList ++ (c.bsvw.toList ++ [c.gsc, c.sfr])))[i]'(by simpa using hi)).toNat :=
  memRead_b32Image _ _ _ i _ (packConfig_append c tail) (by simpa using ha)

theorem b32At_packConfig {a : Nat} (i : Nat) (hi : i < 50) (ha : a = 30 + 4 * i) :
    b32At (packConfig c ++ tail) a =
      (c.bpv.toList ++ (c.bpd.toList ++ (c.bsvw.toList ++ [c.gsc, c.sfr])))[i]'(by simpa using hi) :=
  BitVec.eq_of_toNat_eq ((toNat_b32At _ _).trans (memRead_packConfig_b32 tail i hi ha))

variable (h : InRange c)
include h

theorem memRead_packConfig_bb (i : Nat) (hi : i < 15) : (memRead (packConfig c ++ tail) (2 * i) 2 : Int) = c.bb[i] := by
  obtain ⟨hbb, -⟩ := h
  obtain ⟨h0, h1⟩ : 0 ≤ c.bb[i] ∧ c.bb[i] ≤ 65535 := hbb ⟨i, hi⟩
  have hm := memRead_intImage 2 [] c.bb.toList _ i (by simpa using hi) (by simpa using h0)
    (by simp only [Vector.getElem_toList]; omega) (packConfig_append c tail) (Nat.zero_add _).symm
  simpa using hm

/-- The two levels are the last two bytes (R42). -/
theorem memRead_packConfig_dacs :
    (memRead (packConfig c ++ tail) 230 1 : Int) = c.laserDac ∧ (memRead (packConfig c ++ tail) 231 1 : Int) = c.fanDac := by
  obtain ⟨-, hl0, hl1, hf0, hf1⟩ := h
  have hf := (packConfig_append c tail).trans (List.append_assoc _ _ _).symm
  exact ⟨memRead_intImage 1 _ [c.laserDac, c.fanDac] tail 0 (by simp) hl0 (Int.lt_of_le_of_lt hl1 (by decide)) hf (by simp),
    memRead_intImage 1 _ [c.laserDac, c.fanDac] tail 1 (by simp) hf0 (Int.lt_of_le_of_lt hf1 (by decide)) hf (by simp)⟩

/-- Parsing the image of a record in range gives the record back, whatever bytes follow the image. -/
theorem widen_configOf_packConfig : (configOf (packConfig c ++ tail)).widen = c := by
  obtain ⟨hlaser, hfan⟩ := memRead_packConfig_dacs tail h
  change _ = ConfigW.mk c.bb c.bpv c.bpd c.bsvw c.gsc c.sfr c.laserDac c.fanDac
  simp only [ConfigR.widen, configOf, ConfigW.mk.injEq]
  refine ⟨?bounds, ?volumes, ?densities, ?weightings, ?gain, ?flow, ?laser, ?fan⟩
  case bounds =>
    ext i hi
    simpa using memRead_packConfig_bb tail h i hi
  case volumes =>
    ext i hi : 1
    simp [b32At_packConfig tail i (by omega) rfl, hi]
  case densities =>
    ext i hi : 1
    simp [b32At_packConfig tail (16 + i) (by omega) (by omega : 94 + 4 * i = _), hi]
  case weightings =>
    ext i hi : 1
    simp [b32At_packConfig tail (16 + (16 + i)) (by omega) (by omega : 158 + 4 * i = _), hi]
  case gain => simp [b32At_packConfig tail 48 (by omega) (rfl : 222 = _)]
  case flow => simp [b32At_packConfig tail 49 (by omega) (rfl : 226 = _)]
  case laser => rw [toNat_byteAt, hlaser]
  case fan => rw [toNat_byteAt, hfan]

end Fields

/-! ## Commands read back (R54, R61) -/

/-- The bytes after the leading ones, and whatever follows them, determine the operation. -/
theorem instr_var_append {i : Instr} {k : CmdKind} (hk : i.kind = some k) (hi : checkOperand i.operand = none)
    (tail : List Byte) : k.instr (i.operand.var ++ tail) = i := by
  have hpower : ∀ p, checkPower p = none → (memRead (intBytes 1 p ++ tail) 0 1 : Int) = p := fun p hp => by
    obtain ⟨h0, h1⟩ := checkPower_none.mp hp
    exact memRead_intImage 1 [] [p] tail 0 (by simp) h0 (Int.lt_of_le_of_lt h1 (by decide)) (by simp) rfl
  cases i with
  | setFanPower p => cases hk; exact congrArg Instr.setFanPower (hpower p hi)
  | setLaserPower p => cases hk; exact congrArg Instr.setLaserPower (hpower p hi)
  | writeConfig c => cases hk; exact congrArg Instr.writeConfig (widen_configOf_packConfig tail (checkConfig_none.mp hi))
  | openSession | laserOn | laserOff | fanOn | fanOff | readHistogram | readConfig | saveConfig => cases hk; rfl
  | validate | binbound | close => cases hk

/-- Settles O9: the leading bytes give the kind, then the bytes after them the operation, and the length of
`VAR` is the kind's. -/
theorem commandStreamsReadBackInOneWay : Obligations.CommandStreamsReadBackInOneWay := by
  intro c i j k l a b hi hj hci hcj heq
  simp only [Params.command, List.append_assoc] at heq
  have hkl : k = l := by
    have h := kindOf_lead c k (i.operand.var ++ a)
    rw [heq, kindOf_lead] at h
    exact (Option.some.inj h).symm
  subst hkl
  have hvar : i.operand.var ++ a = j.operand.var ++ b := List.append_cancel_left heq
  have hlen : i.operand.var.length = j.operand.var.length := (length_var hi).trans (length_var hj).symm
  refine ⟨?_, (List.append_inj hvar hlen).2⟩
  calc i = k.instr (i.operand.var ++ a) := (instr_var_append hi hci a).symm
    _ = k.instr (j.operand.var ++ b) := by rw [hvar]
    _ = j := instr_var_append hj hcj b

/-! ## Layouts (R7 (b), R32, R45) -/

theorem Layout.fits_iff {l : Layout} {n : Nat} :
    l.fits n = true ↔ ∀ f ∈ l.fields, f.1.width = f.2 ∧ f.1.offset + f.2 ≤ n := by
  simp only [Layout.fits, List.all_eq_true, Bool.and_eq_true, beq_iff_eq, decide_eq_true_eq]

/-- Settles O15: every descriptor fits `HIST_LEN`, and the configuration's own constraints bound the frames. -/
theorem layoutFieldsLieInsideTheFrame : Obligations.LayoutFieldsLieInsideTheFrame := by
  intro c id l hl
  obtain ⟨-, hcfg, hack, -⟩ := c.lengths
  obtain ⟨⟨hackMax, -⟩, ⟨hinfoMax, -⟩, ⟨hhistMax, -⟩, ⟨hcfgMax, -⟩⟩ := c.frames
  refine ⟨fun f hf => ?_, hhistMax, hcfgMax, hcfg, hinfoMax, hack, hackMax⟩
  obtain ⟨hwidth, hend⟩ := Layout.fits_iff.mp (Cfg.layout_fits hl) f hf
  exact ⟨hwidth, hwidth ▸ hend⟩

/-! ## The step (R3, R9) -/

/-- The operation that comes next is the one the oldest request decodes to (R9). -/
theorem nextOperation_of_request {s : State} {r : Request} {rest : List Request} {i : Instr}
    (hs : s.requests = r :: rest) (hr : decodeRequest r = .instr i) : nextOperation s = .run i (present r rest s) := by
  simp [nextOperation, hs, present, hr]

/-- Settles O1: the next operation is executed whole, in the state that presents it. -/
theorem stepRunsThePresentedOperation : Obligations.StepRunsThePresentedOperation := by
  intro s r rest i hs hr
  rw [step, nextOperation_of_request hs hr]
  rfl

end Sys2Proof
end

section
/-! PROOFS of the statements of spec/10_state.md: the invariant at reset and over every step (R14 to R22, R150), the
operand registers (R9), and the reads of registers without value (R14). -/

namespace Sys2Proof.Machine

open Sys2Proof.Expect

/-! ## What trimming leaves and takes (R94) -/

theorem trim_lo_le_hi (ws raw : List Byte) : (trim ws raw).1 ≤ (trim ws raw).2 := Nat.le_max_left _ _

theorem trim_hi_le_length (ws raw : List Byte) : (trim ws raw).2 ≤ raw.length :=
  Nat.max_le.mpr ⟨(List.takeWhile_sublist _).length_le, Nat.sub_le _ _⟩

/-- Every byte that trimming takes off either end is whitespace. -/
theorem mem_ws_of_trimmed_off {ws raw : List Byte} {b : Byte}
    (hb : b ∈ raw.take (trim ws raw).1 ++ raw.drop (trim ws raw).2) : b ∈ ws := by
  have ws_of_run : ∀ {l : List Byte}, b ∈ l.takeWhile (fun x => ws.contains x) → b ∈ ws := fun h => by
    simpa using List.mem_takeWhile_imp h
  have run_eq_take : ∀ l : List Byte, l.take (l.takeWhile fun x => ws.contains x).length = l.takeWhile _ := fun l =>
    (List.prefix_iff_eq_take.mp (List.takeWhile_prefix _)).symm
  rcases List.mem_append.mp hb with hfront | hback
  · exact ws_of_run (l := raw) (run_eq_take raw ▸ hfront)
  · refine ws_of_run (l := raw.reverse) ?_
    rw [← run_eq_take, List.take_reverse, List.mem_reverse]
    exact (List.drop_suffix_drop_left raw (Nat.le_max_right _ _)).subset hback

/-! ## The registers that outlive an operation -/

/-- What the invariant says of the registers that outlive an operation: all of `Inv` but the void buffers (R108) and the
error registers (R134), which every operation writes anew. -/
structure ResultsAgree (s : State) : Prop where
  presence : PresenceAgrees s
  valid : ValidAgrees s
  session : SessionAgrees s
  info : InfoAgrees s
  bus : BusAgrees s

theorem Inv.results {s : State} (h : Inv s) : ResultsAgree s := ⟨h.presence, h.valid, h.session, h.info, h.bus⟩

namespace ResultsAgree

variable {u : State} (hu : ResultsAgree u)
include hu

theorem clearErrors : ResultsAgree (clearErrors u) := ⟨hu.presence, hu.valid, hu.session, hu.info, hu.bus⟩

theorem recordError (e : Error) : ResultsAgree (recordError e u) := by
  cases e <;> exact ⟨hu.presence, hu.valid, hu.session, hu.info, hu.bus⟩

/-- In Ready a layout is held (R19). -/
theorem layout_of_ready (h : u.session = .ready) : u.layout.isSome = true := by
  obtain ⟨-, hin, -⟩ := hu.session
  exact (hin h).1

/-- A command of the opcode table with an operand in range goes out and is counted (R106). -/
theorem called {i : Instr} {k : CmdKind} (hk : i.kind = some k) (hv : checkOperand i.operand = none) (rest : List Answer) :
    ResultsAgree (called k i.operand rest u) := by
  obtain ⟨hcount, hcalls⟩ := hu.bus
  refine ⟨hu.presence, hu.valid, hu.session, hu.info, congrArg (· + 1) hcount, fun b hb => ?_⟩
  rcases List.mem_cons.mp hb with rfl | hold
  · exact ⟨i, k, hk, hv, rfl, rfl, rfl⟩
  · exact hcalls b hold

theorem answered {i : Instr} {k : CmdKind} (hk : i.kind = some k) (hv : checkOperand i.operand = none) (r : List Byte)
    (rest : List Answer) : ResultsAgree (answered k i.operand r rest u) := by
  obtain ⟨hpresence, hvalid, hsession, hinfo, hbus⟩ := hu.clearErrors.called hk hv rest
  exact ⟨hpresence, hvalid, hsession, hinfo, hbus⟩

/-- An acknowledge frame decoded (R92) writes `ACK`, which the invariant leaves free. -/
theorem setAck (a : Bool) : ResultsAgree { u with ack := a } := ⟨hu.presence, hu.valid, hu.session, hu.info, hu.bus⟩

/-- A toggle may make a power sub-state known in Ready (R18, R110 to R113). -/
theorem settled {i : Instr} (hready : i ≠ .openSession → u.session = .ready) : ResultsAgree (settled i u) := by
  by_cases ho : i = .openSession
  · subst ho; exact hu
  have hlayout := hu.layout_of_ready (hready ho)
  obtain ⟨hpresence, hvalid, ⟨hseen, hin, hwhere, -⟩, hinfo, hbus⟩ := hu
  exact {
    presence := by simpa [PresenceAgrees] using hpresence
    valid := by simpa [ValidAgrees] using hvalid
    session := ⟨by simpa using hseen, by simpa using hin, by simpa using hwhere, fun _ => by simpa using hlayout⟩
    info := by simpa [InfoAgrees] using hinfo
    bus := by simpa [BusAgrees] using hbus }

/-- A configuration record decoded (R91). -/
theorem setConfig (c : ConfigR) : ResultsAgree { u with cfgr := some c, cfgPresent := true } := by
  obtain ⟨hhist, -, hinfo, -⟩ := hu.presence
  exact ⟨⟨hhist, rfl, hinfo, fun _ => rfl⟩, hu.valid, hu.session, hu.info, hu.bus⟩

/-- A boundary looked up in a record that is present (R123). -/
theorem setBoundary (h : u.cfgPresent = true) (v : Option U16) : ResultsAgree { u with bbout := v } := by
  obtain ⟨hhist, hcfg, hinfo, -⟩ := hu.presence
  exact ⟨⟨hhist, hcfg, hinfo, fun _ => h⟩, hu.valid, hu.session, hu.info, hu.bus⟩

/-- The record held and the verdict on it (R100). -/
theorem setVerdict {x : Hist} (h : u.hist = some x) {v : Bool} (hv : v = true ↔ ChecksumHolds x) :
    ResultsAgree { u with valid := v } := by
  refine ⟨hu.presence, hv.trans ⟨fun hx => ⟨x, h, hx⟩, ?_⟩, hu.session, hu.info, hu.bus⟩
  rintro ⟨y, hy, hholds⟩
  cases h.symm.trans hy
  exact hholds

/-- A histogram record decoded and judged (R90, R116). -/
theorem setHist (x : Hist) {v : Bool} (hv : v = true ↔ ChecksumHolds x) :
    ResultsAgree { u with hist := some x, histPresent := true, valid := v } := by
  obtain ⟨-, hcfg, hinfo, hbbout⟩ := hu.presence
  refine ⟨⟨rfl, hcfg, hinfo, hbbout⟩, hv.trans ⟨fun hx => ⟨x, rfl, hx⟩, ?_⟩, hu.session, hu.info, hu.bus⟩
  rintro ⟨y, hy, hholds⟩
  cases hy
  exact hholds

/-- Closed keeps what Ready held (R124, R142). -/
theorem close : ResultsAgree { u with session := .closed } := by
  obtain ⟨-, -, -, hpower⟩ := hu.session
  exact ⟨hu.presence, hu.valid, ⟨nofun, nofun, fun _ => .inr rfl, hpower⟩, hu.info, hu.bus⟩

/-- A handshake that met an unknown signature: Uninitialized held no layout, and FirmwareFailed holds none (R131). -/
theorem failHandshake (h : u.session = .uninitialized) : ResultsAgree { u with session := .firmwareFailed } := by
  obtain ⟨-, -, hwhere, hpower⟩ := hu.session
  refine ⟨hu.presence, hu.valid, ⟨nofun, nofun, fun hl => ?_, hpower⟩, hu.info, hu.bus⟩
  rcases hwhere hl with hs | hs <;> cases h.symm.trans hs

/-- A handshake that met a signature of `SIGS`: the info record and `LAYOUT` are written together (R93, R109). -/
theorem openWith {raw : List Byte} {m : LayoutId} (hlen : raw.length = u.cfg.infoLen)
    (hm : classify u.cfg.sigs (slice raw (trim u.cfg.ws raw).1 (trim u.cfg.ws raw).2) = some m) :
    ResultsAgree { u with
      info := some { raw := raw, lo := (trim u.cfg.ws raw).1, hi := (trim u.cfg.ws raw).2 }
      infoPresent := true
      layout := some m
      session := .ready
      laser := .unknown
      fan := .unknown } := by
  obtain ⟨hhist, hcfg, -, hbbout⟩ := hu.presence
  obtain ⟨g, hg, hbytes, hlayout⟩ := classify_some hm
  refine ⟨⟨hhist, hcfg, rfl, hbbout⟩, hu.valid, ⟨nofun, fun _ => ⟨rfl, rfl⟩, fun _ => .inl rfl, fun _ => rfl⟩,
    ⟨rfl, ?_⟩, hu.bus⟩
  rintro _ ⟨⟩
  exact ⟨hlen, trim_lo_le_hi _ _, hlen ▸ trim_hi_le_length _ _, fun b hb => mem_ws_of_trimmed_off hb,
    g, hg, hbytes, congrArg some hlayout.symm⟩

end ResultsAgree

/-! ## The error registers (R20, R127 to R137) -/

/-- An error whose context fits its registers and that says of the state what its kind means (R20, R128, R131, R132, R136). -/
def Error.Fits (u : State) : Error → Prop
  | .framing expected actual => actual ≠ expected ∧ actual < 2 ^ u.cfg.lenW ∧ expected < 2 ^ u.cfg.lenW
  | .firmware sig => sig.length = u.cfg.infoLen ∧ u.session = .firmwareFailed
  | .checksum => u.hist.isSome = true ∧ u.valid = false
  | .range field _ => field.toNat ≤ 18
  | .closed => u.session = .closed
  | .transport | .notReady => True

theorem errorAgrees_clearErrors (u : State) : ErrorAgrees (clearErrors u) := by simp [ErrorAgrees]

theorem errorAgrees_recordError {u : State} {e : Error} (he : e.Fits u) : ErrorAgrees (recordError e (clearErrors u)) := by
  cases e <;> simp_all [ErrorAgrees, recordError, Error.Fits]

theorem errorMeans_of_no_error {u : State} (h : u.err = .none) : ErrorMeans u := by simp [ErrorMeans, h]

theorem errorMeans_recordError {u : State} {e : Error} (he : e.Fits u) : ErrorMeans (recordError e u) := by
  cases e <;> simp_all [ErrorMeans, recordError, Error.Fits]

/-- An operation that ends without an error keeps the invariant if it keeps the registers that outlive it. -/
theorem inv_finish {u : State} (hu : ResultsAgree u) (hclear : clearErrors u = u) : Inv (finish u) where
  buffers := ⟨rfl, rfl, rfl, rfl, rfl, rfl⟩
  presence := hu.presence
  valid := hu.valid
  session := hu.session
  info := hu.info
  error := (hclear ▸ errorAgrees_clearErrors u : ErrorAgrees u)
  means := (hclear ▸ errorMeans_of_no_error (clearErrors_err u) : ErrorMeans u)
  bus := hu.bus

/-- An operation that raised keeps the invariant if it keeps the registers that outlive it and its error fits. -/
theorem inv_finish_recordError {u : State} {e : Error} (hu : ResultsAgree u) (hclear : clearErrors u = u) (he : e.Fits u) :
    Inv (finish (recordError e u)) where
  buffers := ⟨rfl, rfl, rfl, rfl, rfl, rfl⟩
  presence := (hu.recordError e).presence
  valid := (hu.recordError e).valid
  session := (hu.recordError e).session
  info := (hu.recordError e).info
  error := (hclear ▸ errorAgrees_recordError he : ErrorAgrees (recordError e u))
  means := errorMeans_recordError he
  bus := (hu.recordError e).bus

/-- A frame whose length is not accepted has a length other than the expected one, and both can be counted (R83, R130). -/
theorem framing_fits {k : CmdKind} {u : State} {n : Nat} (hn : u.rxlen = min n (2 ^ u.cfg.lenW - 1))
    (h : ¬ frameAccepted k u) : (Error.framing (u.cfg.rlen k) (min n (2 ^ u.cfg.lenW - 1))).Fits u := by
  have hpos : 0 < 2 ^ u.cfg.lenW := Nat.two_pow_pos _
  refine ⟨fun heq => h ?_, by omega, (u.cfg.rlen_bounds k).2.2⟩
  rw [frameAccepted, hn, heq]
  exact ⟨le_rfl, fun _ => le_rfl⟩

/-- The info string of an accepted frame has its full length: the receive buffer holds that many bytes (R6, R11). -/
theorem length_raw {u : State} {r : List Byte} (hn : u.rxlen = min r.length (2 ^ u.cfg.lenW - 1))
    (h : frameAccepted .info u) : ((r.take u.cfg.rxMax).take u.cfg.infoLen).length = u.cfg.infoLen := by
  obtain ⟨hlen, -⟩ := h
  obtain ⟨-, hmax, -⟩ := u.cfg.rlen_bounds .info
  simp only [Params.rlen, CmdKind.response] at hlen hmax
  rw [List.length_take, List.length_take]
  omega

/-! ## The invariant over one operation -/

theorem Admitted.inRange {i : Instr} {s : State} (h : Admitted i s) : checkOperand i.operand = none := h.1

theorem Admitted.uninitialized {s : State} (h : Admitted .openSession s) : s.session = .uninitialized := by
  obtain ⟨-, ⟨-, hs⟩ | ⟨ho, -⟩⟩ := h
  · exact hs
  · exact absurd rfl ho

theorem Admitted.ready {i : Instr} {s : State} (h : Admitted i s) (ho : i ≠ .openSession) : s.session = .ready := by
  obtain ⟨-, ⟨hi, -⟩ | ⟨-, -, hs⟩⟩ := h
  · exact absurd hi ho
  · exact hs

theorem clearErrors_settled (i : Instr) (u : State) : clearErrors (settled i u) = settled i (clearErrors u) := by
  cases i <;> rfl

/-- Every way an operation can end keeps the invariant. -/
theorem exec_keeps_inv {i : Instr} {s t : State} (hs : Inv s) (h : exec i s = .next t) : Inv t := by
  have hr := hs.results
  rcases exec_next_cases h with ⟨e, he, rfl⟩ | ⟨k, rest, hk, hA, -, rfl⟩ | ⟨k, r, rest, hk, hA, -, hf, rfl⟩ |
    ⟨k, r, rest, hk, -, hA, -, -, rfl⟩ | ⟨rfl, -, r, rest, -, -, rfl⟩ |
    ⟨rfl, -, r, rest, l, -, -, ⟨hc, rfl⟩ | ⟨hc, rfl⟩⟩ |
    ⟨rfl, hA, r, rest, -, hf, ⟨-, rfl⟩ | ⟨m, hm, rfl⟩⟩ |
    ⟨rfl, -, x, hx, ⟨hc, rfl⟩ | ⟨hc, rfl⟩⟩ | ⟨x, c, rfl, hp, -, rfl⟩ | ⟨rfl, rfl⟩
  · -- turned away before the exchange
    refine inv_finish_recordError hr.clearErrors rfl ?_
    rcases he with ⟨rfl, hclosed, -⟩ | rfl | ⟨f, v, rfl, hfield⟩
    · exact hclosed
    · trivial
    · exact hfield
  · -- the transport failed
    exact inv_finish_recordError (hr.clearErrors.called hk hA.inRange rest) rfl trivial
  · -- the frame's length was not accepted
    exact inv_finish_recordError (hr.answered hk hA.inRange r rest) rfl (framing_fits rfl hf)
  · -- an acknowledge frame
    refine inv_finish (((hr.answered hk hA.inRange r rest).setAck _).settled hA.ready) ?_
    rw [clearErrors_settled]
    rfl
  · -- READ_CONFIG
    exact inv_finish ((hr.answered (i := .readConfig) rfl rfl r rest).setConfig _) rfl
  · -- READ_HISTOGRAM, the checksum holds
    exact inv_finish ((hr.answered (i := .readHistogram) rfl rfl r rest).setHist _ (by simpa using hc)) rfl
  · -- READ_HISTOGRAM, the checksum fails
    exact inv_finish_recordError ((hr.answered (i := .readHistogram) rfl rfl r rest).setHist _ (by simpa using hc)) rfl
      ⟨rfl, rfl⟩
  · -- OPEN, an unknown signature
    exact inv_finish_recordError (e := .firmware _)
      ((hr.answered (i := .openSession) rfl rfl r rest).failHandshake hA.uninitialized) rfl
      ⟨length_raw (u := answered .info .none r rest s) rfl hf, rfl⟩
  · -- OPEN, a signature of `SIGS`
    exact inv_finish ((hr.answered (i := .openSession) rfl rfl r rest).openWith
      (length_raw (u := answered .info .none r rest s) rfl hf) hm) rfl
  · -- VALIDATE, the checksum holds
    exact inv_finish (hr.clearErrors.setVerdict hx (by simpa using hc)) rfl
  · -- VALIDATE, the checksum fails
    exact inv_finish_recordError (hr.clearErrors.setVerdict hx (by simpa using hc)) rfl ⟨by simp [hx], rfl⟩
  · -- BINBOUND
    exact inv_finish (hr.clearErrors.setBoundary hp _) rfl
  · -- CLOSE
    exact inv_finish hr.clearErrors.close rfl

/-! ## The invariant over one step and at reset -/

/-- The host's write of the operand registers touches nothing the invariant speaks of (R9). -/
theorem Inv.present {s : State} (h : Inv s) (r : Request) (rest : List Request) : Inv (present r rest s) :=
  ⟨h.buffers, h.presence, h.valid, h.session, h.info, h.error, h.means, h.bus⟩

/-- Only the selectors 14 and 15 present no operation (R62 (b)). -/
theorem op_of_rejected {r : Request} {e : DecodeError} (h : decodeRequest r = .rejected e) : r.op = 14 ∨ r.op = 15 := by
  have hop : ∀ op : BitVec 4, op.toNat ≤ 13 ∨ op = 14 ∨ op = 15 := by decide
  rcases hop r.op with hassigned | hunassigned
  · unfold decodeRequest at h
    interval_cases r.op.toNat <;> cases h
  · exact hunassigned

theorem noSuchOperation_next {s : State} (h : s.op = 14 ∨ s.op = 15) :
    noSuchOperation s = .next (finish (recordError .notReady (clearErrors s))) := by
  rw [noSuchOperation, operation_eq, gate_unassigned h, andThen_raise, ending_raise]

/-- What a step can do: nothing, the operation presented, or a NotReadyError for a selector without operation (R3, R62 (b)). -/
theorem step_cases (s : State) :
    (s.requests = [] ∧ step s = .next s) ∨
    (∃ r rest i, s.requests = r :: rest ∧ decodeRequest r = .instr i ∧ step s = exec i (present r rest s)) ∨
    (∃ r rest, s.requests = r :: rest ∧ (r.op = 14 ∨ r.op = 15) ∧
      step s = .next (finish (recordError .notReady (clearErrors (present r rest s))))) := by
  cases hs : s.requests with
  | nil => exact .inl ⟨rfl, by simp [step, nextOperation, hs]⟩
  | cons r rest =>
    cases hd : decodeRequest r with
    | instr i => exact .inr (.inl ⟨r, rest, i, rfl, hd, by rw [step, nextOperation_of_request hs hd]⟩)
    | rejected e =>
      have hop := op_of_rejected hd
      have hnext : nextOperation s = .unassigned (present r rest s) := by simp [nextOperation, hs, present, hd]
      refine .inr (.inr ⟨r, rest, rfl, hop, ?_⟩)
      rw [step, hnext]
      exact noSuchOperation_next (s := present r rest s) hop

/-- Settles O5: every way a step can end is one of the operations, or leaves the registers that outlive it alone. -/
theorem everyStepKeepsTheInvariant : Obligations.EveryStepKeepsTheInvariant := by
  intro s t hs hstep
  rcases step_cases s with ⟨-, e⟩ | ⟨r, rest, i, -, -, e⟩ | ⟨r, rest, -, -, e⟩ <;> rw [e] at hstep
  · cases hstep
    exact hs
  · exact exec_keeps_inv (hs.present r rest) hstep
  · cases hstep
    exact inv_finish_recordError (hs.present r rest).results.clearErrors rfl trivial

/-- Settles O4: after reset no register holds a value, so no register disagrees with another. -/
theorem resetMeetsTheInvariant : Obligations.ResetMeetsTheInvariant := by
  intro c
  have hr : ResultsAgree (State.resetWith c) := {
    presence := ⟨rfl, rfl, rfl, nofun⟩
    valid := by simp [ValidAgrees, State.resetWith]
    session := ⟨nofun, nofun, nofun, by simp [State.resetWith]⟩
    info := ⟨rfl, nofun⟩
    bus := ⟨rfl, nofun⟩ }
  exact inv_finish hr rfl

/-! ## The operand registers (R9) -/

/-- The state with other contents of the operand registers, as the host presents them. -/
def withOperands (r : Request) (s : State) : State := present r s.requests s

/-- The same end of a run in another state. -/
def Run.map (w : State → State) : Run → Run
  | .go s => .go (w s)
  | .raised s => .raised (w s)
  | .stop f => .stop f

/-- A phase of an operation that neither reads nor writes an operand register. -/
def IgnoresOperands (f : State → Run) : Prop := ∀ r s, f (withOperands r s) = (f s).map (withOperands r)

theorem IgnoresOperands.andThen {f g : State → Run} (hf : IgnoresOperands f) (hg : IgnoresOperands g) :
    IgnoresOperands fun s => (f s).andThen g := fun r s => by
  change (f (withOperands r s)).andThen g = ((f s).andThen g).map _
  rw [hf r s]
  cases f s with
  | go u => exact hg r u
  | raised u => rfl
  | stop x => rfl

theorem IgnoresOperands.onRaise {f : State → Run} {g : State → State} (hf : IgnoresOperands f)
    (hg : ∀ r s, g (withOperands r s) = withOperands r (g s)) : IgnoresOperands fun s => (f s).onRaise g := fun r s => by
  change (f (withOperands r s)).onRaise g = ((f s).onRaise g).map _
  rw [hf r s]
  cases f s with
  | go u => rfl
  | raised u => exact congrArg Run.raised (hg r u)
  | stop x => rfl

theorem raise_ignoresOperands (e : Error) : IgnoresOperands (raise e) := fun r s => by cases e <;> rfl

theorem gate_ignoresOperands (op : BitVec 4) : IgnoresOperands (gate op) := fun r s => by
  have hsession : (withOperands r s).session = s.session := rfl
  simp only [gate, hsession, raise_ignoresOperands _ r s]
  split_ifs <;> rfl

theorem sendCommand_ignoresOperands (k : CmdKind) (v : Operand) : IgnoresOperands (sendCommand k v) := fun r s => by
  rcases sendCommand_cases k v s with ⟨e, hv, h⟩ | ⟨hv, ha, h⟩ | ⟨hv, rest, ha, h⟩ | ⟨hv, b, rest, ha, h⟩ <;> rw [h]
  · rw [sendCommand_range hv, raise_ignoresOperands]
  · rw [sendCommand_silent (s := withOperands r s) hv ha]
    rfl
  · rw [sendCommand_fail (s := withOperands r s) hv ha]
    rfl
  · rw [sendCommand_bytes (s := withOperands r s) hv ha]
    rfl

theorem checkLength_ignoresOperands (k : CmdKind) : IgnoresOperands (checkLength k) := fun r s => by
  rcases checkLength_cases k s with ⟨hf, h⟩ | ⟨hf, h⟩ <;> rw [h]
  · rw [checkLength_ok (s := withOperands r s) hf]
    rfl
  · rw [checkLength_bad (s := withOperands r s) hf]
    rfl

theorem decodeAck_ignoresOperands (k : CmdKind) : IgnoresOperands (decodeAck k) :=
  (checkLength_ignoresOperands k).andThen fun _ _ => rfl

theorem decodeCfg_ignoresOperands : IgnoresOperands decodeCfg :=
  (checkLength_ignoresOperands .readConfig).andThen fun _ _ => rfl

theorem decodeHist_ignoresOperands : IgnoresOperands decodeHist :=
  (checkLength_ignoresOperands .readHistogram).andThen fun r s => by
    have hlayout : (withOperands r s).layout = s.layout := rfl
    have hcfg : (withOperands r s).cfg = s.cfg := rfl
    simp only [hlayout, hcfg]
    cases s.layout with
    | none => rfl
    | some id => cases h : s.cfg.layoutOf id <;> simp only [h] <;> rfl

theorem decodeInfo_ignoresOperands : IgnoresOperands decodeInfo :=
  (checkLength_ignoresOperands .info).andThen fun r s => by
    have hcfg : (withOperands r s).cfg = s.cfg := rfl
    have hrxbuf : (withOperands r s).rxbuf = s.rxbuf := rfl
    simp only [hcfg, hrxbuf]
    split <;> rfl

theorem validateRecord_ignoresOperands : IgnoresOperands validateRecord := fun r s => by
  have hhist : (withOperands r s).hist = s.hist := rfl
  simp only [validateRecord, hhist]
  cases s.hist with
  | none => rfl
  | some x => cases h : validFlag x <;> simp only [h] <;> rfl

theorem afterExchange_ignoresOperands (i : Instr) : IgnoresOperands (afterExchange i) := by
  cases i with
  | laserOn | laserOff | fanOn | fanOff => exact (decodeAck_ignoresOperands _).andThen fun _ _ => rfl
  | setFanPower | setLaserPower | writeConfig | saveConfig => exact decodeAck_ignoresOperands _
  | readHistogram => exact decodeHist_ignoresOperands.andThen validateRecord_ignoresOperands
  | readConfig => exact decodeCfg_ignoresOperands
  | openSession | validate | binbound | close => exact fun _ _ => rfl

/-- An operation is a body in the one skeleton (R104), and the body leaves the operand registers alone (R9). -/
def BodyIgnoresOperands (i : Instr) : Prop := ∃ body, IgnoresOperands body ∧ ∀ s, exec i s = operation i.op body s

theorem openSession_bodyIgnoresOperands : BodyIgnoresOperands .openSession := by
  have hsend : IgnoresOperands fun s => sendCommand .info .none { s with session := .handshaking } := fun r s =>
    sendCommand_ignoresOperands .info .none r { s with session := .handshaking }
  have hshake := (hsend.andThen decodeInfo_ignoresOperands).onRaise (g := handshakeFailed) fun _ _ => rfl
  exact ⟨_, hshake.andThen fun _ _ => rfl, fun _ => rfl⟩

theorem bus_bodyIgnoresOperands {i : Instr} {k : CmdKind} (hk : i.kind = some k) (ho : i ≠ .openSession) :
    BodyIgnoresOperands i :=
  ⟨_, (sendCommand_ignoresOperands k i.operand).andThen (afterExchange_ignoresOperands i), exec_bus hk ho⟩

theorem validate_bodyIgnoresOperands : BodyIgnoresOperands .validate := by
  refine ⟨_, fun r s => ?_, fun _ => rfl⟩
  have hpresent : (withOperands r s).histPresent = s.histPresent := rfl
  simp only [hpresent, validateRecord_ignoresOperands r s]
  split <;> rfl

theorem binbound_bodyIgnoresOperands (idx : Int) : BodyIgnoresOperands (.binbound idx) := by
  refine ⟨_, fun r s => ?_, fun _ => rfl⟩
  have hpresent : (withOperands r s).cfgPresent = s.cfgPresent := rfl
  have hcfgr : (withOperands r s).cfgr = s.cfgr := rfl
  simp only [hpresent, hcfgr, raise_ignoresOperands _ r s]
  split
  · rfl
  · cases checkIndex idx with
    | some e => rfl
    | none => cases s.cfgr <;> rfl

theorem close_bodyIgnoresOperands : BodyIgnoresOperands .close :=
  ⟨fun s => .go { s with session := .closed }, fun _ _ => rfl, fun _ => rfl⟩

theorem exec_bodyIgnoresOperands (i : Instr) : BodyIgnoresOperands i := by
  cases i with
  | openSession => exact openSession_bodyIgnoresOperands
  | validate => exact validate_bodyIgnoresOperands
  | binbound idx => exact binbound_bodyIgnoresOperands idx
  | close => exact close_bodyIgnoresOperands
  | laserOn | laserOff | fanOn | fanOff | setFanPower | setLaserPower | readHistogram | readConfig | writeConfig
  | saveConfig => exact bus_bodyIgnoresOperands rfl nofun

theorem operation_withOperands {op : BitVec 4} {body : State → Run} {s t : State} (hbody : IgnoresOperands body)
    (h : operation op body s = .next t) (r : Request) :
    operation op body (withOperands r s) = .next (withOperands r t) := by
  have hrun : (gate op (clearErrors (withOperands r s))).andThen body =
      ((gate op (clearErrors s)).andThen body).map (withOperands r) :=
    ((gate_ignoresOperands op).andThen hbody) r (clearErrors s)
  obtain ⟨u, rfl, hend | hend⟩ := operation_next h <;> rw [operation_eq, hrun, hend] <;> rfl

/-- Settles O44: no phase of an operation reads or writes an operand register. -/
theorem operandRegistersAreOnlyReadAtTheStart : Obligations.OperandRegistersAreOnlyReadAtTheStart := by
  intro i s t o p x c h
  obtain ⟨body, hbody, hexec⟩ := exec_bodyIgnoresOperands i
  rw [hexec] at h ⊢
  exact operation_withOperands hbody h ⟨o, p, x, c⟩

/-! ## Reads of registers without value (R14) -/

theorem decodeHist_noLayout {u : State} (hf : frameAccepted .readHistogram u) (hl : u.layout = none) :
    decodeHist u = .stop (.noValue .layout) := by simp [decodeHist, checkLength_ok hf, hl]

theorem decodeHist_unknownLayout {u : State} (hf : frameAccepted .readHistogram u) {id : LayoutId}
    (hl : u.layout = some id) (hd : u.cfg.layoutOf id = none) : decodeHist u = .stop .layoutUnknown := by
  simp [decodeHist, checkLength_ok hf, hl, hd]

/-- Settles O37: the reads come after the presence check (R122, R123) or the length check (R90), and meet no value. -/
theorem readsWithoutValueStop : Obligations.ReadsWithoutValueStop := by
  refine ⟨fun s hp hh => ?validate, fun s i hp hc => ?binbound, fun s r rest hs ha hacc => ?histogram⟩
  case validate =>
    rcases exec_validate_cases s with ⟨h, -⟩ | ⟨-, -, e⟩ | ⟨-, x, h, -⟩ | ⟨-, x, h, -⟩
    · exact absurd hp (by simp [h])
    · exact e
    · exact absurd hh (by simp [h])
    · exact absurd hh (by simp [h])
  case binbound =>
    rcases exec_binbound_cases i.val s with ⟨h, -⟩ | ⟨-, h, -⟩ | ⟨-, -, -, e⟩ | ⟨-, -, x, h, -⟩
    · exact absurd hp (by simp [h])
    · omega
    · exact e
    · exact absurd hc (by simp [h])
  case histogram =>
    have hf : frameAccepted .readHistogram (answered .readHistogram .none r rest s) := hacc
    have e : exec .readHistogram s = ending ((decodeHist (answered .readHistogram .none r rest s)).andThen validateRecord) :=
      exec_bus_bytes (i := .readHistogram) rfl nofun hs ha rfl
    refine ⟨fun hl => ?_, fun id hl hd => ?_⟩ <;> rw [e]
    · rw [decodeHist_noLayout hf hl, andThen_stop, ending_stop]
    · rw [decodeHist_unknownLayout hf hl hd, andThen_stop, ending_stop]

end Sys2Proof.Machine
end

section
/-! PROOFS of the statements of spec/20_memory.md: byte order (R36 to R39), the fields of the histogram record (R41),
surplus bytes (R33, R84) and repeated commands (R35, R161). -/

namespace Sys2Proof

open Sys2Proof.Machine Sys2Proof.Expect

/-! ## MemRead byte by byte (R36 to R38) -/

@[simp] theorem memRead_zero (f : List Byte) (a : Nat) : memRead f a 0 = 0 := by simp [memRead, leValue]

/-- A read takes the byte at its address as the least significant one; past the end both sides read 0. -/
theorem memRead_succ (f : List Byte) (a n : Nat) : memRead f a (n + 1) = u8 f a + 256 * memRead f (a + 1) n := by
  unfold memRead u8
  by_cases h : a < f.length
  · rw [List.drop_eq_getElem_cons h, List.take_succ_cons, leValue, List.getD_eq_getElem _ _ h]
  · rw [List.drop_eq_nil_of_le (by omega), List.drop_eq_nil_of_le (by omega)]
    simp [leValue, List.getElem?_eq_none (Nat.le_of_not_lt h)]

theorem memRead_one (f : List Byte) (a : Nat) : memRead f a 1 = u8 f a := by simp [memRead_succ]

theorem memRead_two (f : List Byte) (a : Nat) : memRead f a 2 = le16 f a := by simp [memRead_succ, le16]

theorem memRead_four (f : List Byte) (a : Nat) : memRead f a 4 = le32 f a := by
  simp only [memRead_succ, memRead_zero, le32, Nat.add_assoc, Nat.reduceAdd]
  omega

/-- Settles O13: a read adds its bytes least significant first (R38), one byte at a time. -/
theorem memReadIsLittleEndian : Obligations.MemReadIsLittleEndian := fun r a =>
  ⟨fun _ => memRead_one r a, fun _ => memRead_two r a, fun _ => memRead_four r a⟩

/-! ## MemWrite (R39) -/

/-- Byte `i` of a value's bytes. -/
theorem getElem?_leBytes (n v i : Nat) (hi : i < n) : (leBytes n v)[i]? = some (BitVec.ofNat 8 (v / 256 ^ i)) := by
  induction n generalizing v i with
  | zero => omega
  | succ n ih =>
    cases i with
    | zero => simp [leBytes]
    | succ j => rw [leBytes, List.getElem?_cons_succ, ih _ j (by omega), Nat.div_div_eq_div_mul, pow_succ']

section MemWrite

variable {b : List Byte} {a n : Nat} (v : Nat) (h : a + n ≤ b.length)
include h

theorem length_memWrite : (memWrite b a n v).length = b.length := by
  simp only [memWrite, List.length_append, List.length_take, List.length_drop, length_leBytes]
  omega

theorem getElem?_memWrite (j : Nat) : (memWrite b a n v)[j]? =
    if a ≤ j ∧ j < a + n then (leBytes n v)[j - a]? else b[j]? := by
  have hpre : (b.take a).length = a := List.length_take_of_le (by omega)
  rcases Nat.lt_or_ge j a with hj | hj
  · rw [if_neg (by omega), memWrite, List.append_assoc, List.getElem?_append_left (by omega),
      List.getElem?_take_of_lt hj]
  rw [memWrite, List.append_assoc, List.getElem?_append_right (by omega), hpre]
  rcases Nat.lt_or_ge j (a + n) with hj' | hj'
  · rw [if_pos ⟨hj, hj'⟩, List.getElem?_append_left (by rw [length_leBytes]; omega)]
  · rw [if_neg (by omega), List.getElem?_append_right (by rw [length_leBytes]; omega), List.getElem?_drop, length_leBytes]
    congr 1
    omega

theorem memRead_memWrite (hv : v < 256 ^ n) : memRead (memWrite b a n v) a n = v := by
  have hpre : (b.take a).length = a := List.length_take_of_le (by omega)
  have hread := memRead_append_right (b.take a) (leBytes n v ++ b.drop (a + n)) 0 n
  rw [hpre, Nat.add_zero, memRead_leBytes n v _ hv] at hread
  rw [memWrite, List.append_assoc, hread]

end MemWrite

/-- Settles O14: the written bytes stand between what precedes and what follows them. -/
theorem memWriteThenMemRead : Obligations.MemWriteThenMemRead := by
  intro b a n v _ hv h
  refine ⟨memRead_memWrite v h hv, length_memWrite v h, fun i hi => ?inside, fun j hj => ?outside⟩
  case inside =>
    rw [u8, List.getD_eq_getElem?_getD, getElem?_memWrite v h, if_pos (by omega), Nat.add_sub_cancel_left,
      getElem?_leBytes n v i hi, Option.getD_some, BitVec.toNat_ofNat]
  case outside => rw [getElem?_memWrite v h, if_neg (by omega)]

/-! ## What a frame's bytes past its expected length do not change -/

/-- What depends on the first `m` bytes only is the same on frames that agree there. -/
theorem eq_of_take_eq {β : Type} {f : List Byte → β} {m : Nat} (hf : ∀ r, f (r.take m) = f r) {r r' : List Byte}
    (h : r'.take m = r.take m) : f r' = f r := by rw [← hf r', h, hf r]

namespace Machine

/-- The receive buffer holds every frame of expected length (R6, R11). -/
theorem rlen_le_rxMax (c : Cfg) (k : CmdKind) : c.rlen k ≤ c.rxMax := by
  obtain ⟨-, hmax, -⟩ := c.rlen_bounds k
  exact hmax

/-- The expected length reaches the end of the config layout (R7 (b), R42). -/
theorem le_rlen_readConfig (c : Cfg) : 232 ≤ c.rlen .readConfig := by
  obtain ⟨-, hcfg, -⟩ := c.lengths
  exact hcfg

/-- The status byte lies inside the expected length (R7 (b), R92). -/
theorem acked_take {c : Cfg} {k : CmdKind} (hack : k.response = .ack) {m : Nat} (hm : c.rlen k ≤ m) (r : List Byte) :
    acked c (r.take m) = acked c r := by
  obtain ⟨-, -, hpos, -⟩ := c.lengths
  have hlen : c.rlen k = c.ackLen := by rw [Params.rlen, hack]
  rw [acked, List.getElem?_take_of_lt (by omega), acked]

/-- Surplus bytes leave a frame accepted when `STRICT_LEN` is false (R84). -/
theorem accepted_of_rlen_le {c : Cfg} {k : CmdKind} (hc : c.strictLen = false) {r : List Byte} (h : c.rlen k ≤ r.length) :
    Accepted c k r := by
  obtain ⟨-, -, hcount⟩ := c.rlen_bounds k
  refine ⟨?_, by simp [hc]⟩
  rw [counted]
  omega

/-! ## Decoding an accepted frame: the capacity of the receive buffer cuts nothing that is read (R7 (b), R11, R32) -/

section Decoding

variable {u : State} {r : List Byte}

/-- An acknowledge frame (R92, R110 to R115, R118, R119). -/
theorem afterExchange_receive_ack {i : Instr} {k : CmdKind} (hk : i.kind = some k) (hack : k.response = .ack)
    (hf : frameAccepted k (receive r u)) :
    afterExchange i (receive r u) = .go (settled i { receive r u with ack := acked u.cfg r }) := by
  rw [← acked_take hack (rlen_le_rxMax u.cfg k) r]
  exact afterExchange_ack hk hack _ hf

/-- A config frame (R91). -/
theorem decodeCfg_receive (hf : frameAccepted .readConfig (receive r u)) :
    decodeCfg (receive r u) = .go { receive r u with cfgr := some (configOf r), cfgPresent := true } := by
  rw [← configOf_take ((le_rlen_readConfig u.cfg).trans (rlen_le_rxMax u.cfg .readConfig)) r, decodeCfg, checkLength_ok hf]
  rfl

/-- A histogram frame under a layout that `LAYOUTS` knows (R90). -/
theorem decodeHist_receive (hf : frameAccepted .readHistogram (receive r u)) {id : LayoutId} {l : Layout}
    (hl : u.layout = some id) (hd : u.cfg.layoutOf id = some l) :
    decodeHist (receive r u) = .go { receive r u with hist := some (histOf l r), histPresent := true } := by
  rw [← histOf_take hd (rlen_le_rxMax u.cfg .readHistogram) r]
  simp only [decodeHist, checkLength_ok hf, andThen_go, receive_layout, receive_cfg, hl, hd]
  rfl

end Decoding

/-! ## Operations on an accepted frame -/

/-- The four ways a bus operation's response is decoded (R57). -/
theorem response_cases {i : Instr} {k : CmdKind} (hk : i.kind = some k) :
    k.response = .ack ∨ i = .openSession ∨ i = .readHistogram ∨ i = .readConfig := by
  cases i <;> cases hk <;> simp [CmdKind.response]

/-- OPEN in Uninitialized once the transport has answered (R109). -/
theorem exec_open_bytes {s : State} {r : List Byte} {rest : List Answer} (hs : s.session = .uninitialized)
    (ha : s.answers = .bytes r :: rest) :
    exec .openSession s = afterHandshake (decodeInfo (receive r (handshake rest s))) := by
  have hsend : sendCommand .info .none { clearErrors s with session := .handshaking } =
      .go (receive r (handshake rest s)) := sendCommand_bytes rfl ha
  exact (exec_open_uninitialized hs).trans (congrArg (fun x : Run => afterHandshake (x.andThen decodeInfo)) hsend)

section ReadyAnswered

variable {s : State} {r : List Byte} {rest : List Answer} (hs : s.session = .ready) (ha : s.answers = .bytes r :: rest)
include hs ha

/-- An operation with an ACK response: `ACK` is the device's answer, and the power sub-state follows it (R110 to R115,
R118, R119). -/
theorem exec_ack_accepted {i : Instr} {k : CmdKind} (hk : i.kind = some k) (hack : k.response = .ack)
    (hop : checkOperand i.operand = none) (hacc : Accepted s.cfg k r) :
    exec i s = .next (finish (settled i { answered k i.operand r rest s with ack := acked s.cfg r })) := by
  have ho : i ≠ .openSession := by
    rintro rfl
    cases hk
    cases hack
  have hf : frameAccepted k (receive r (called k i.operand rest (clearErrors s))) := hacc
  rw [exec_bus_bytes hk ho hs ha hop, afterExchange_receive_ack hk hack hf]
  rfl

/-- READ_HISTOGRAM: the record is decoded, then validated (R116). -/
theorem exec_readHistogram_accepted {id : LayoutId} {l : Layout} (hl : s.layout = some id) (hd : s.cfg.layoutOf id = some l)
    (hacc : Accepted s.cfg .readHistogram r) :
    exec .readHistogram s = ending (validateRecord
      { answered .readHistogram .none r rest s with hist := some (histOf l r), histPresent := true }) := by
  have hf : frameAccepted .readHistogram (receive r (called .readHistogram .none rest (clearErrors s))) := hacc
  rw [exec_bus_bytes (i := .readHistogram) rfl nofun hs ha rfl]
  exact congrArg (fun x : Run => ending (x.andThen validateRecord)) (decodeHist_receive hf hl hd)

end ReadyAnswered

/-! ## The histogram record (R41) -/

/-- Validation keeps the record, whatever its verdict (R116, R132). -/
theorem ending_validateRecord_hist {u : State} {h : Hist} (hh : u.hist = some h) :
    ∃ t, ending (validateRecord u) = .next t ∧ t.hist = some h ∧ t.histPresent = u.histPresent := by
  rcases validateRecord_cases u with ⟨hnone, -⟩ | ⟨x, -, -, e⟩ | ⟨x, -, -, e⟩
  · simp [hh] at hnone
  · exact ⟨_, congrArg ending e, hh, rfl⟩
  · exact ⟨_, congrArg ending e, hh, rfl⟩

/-- Under `LAYOUT_V18_2` every register is the field of its width at its offset. -/
theorem histOf_layoutV18_2 (r : List Byte) : histOf layoutV18_2 r =
    { bin := Vector.ofFn fun i => u16At r (2 * i.val)
      mtof := Vector.ofFn fun j => b32At r (32 + 4 * j.val)
      temp := b32At r 48
      pres := byteAt r 52
      period := byteAt r 53
      cksum := u16At r 54
      pm := Vector.ofFn fun k => b32At r (56 + 4 * k.val) } := by
  simp only [histOf, layoutV18_2, Vector.map_ofFn]
  rfl

/-- Settles O20: the decoded record survives validation, and its registers are little-endian fields of the frame. -/
theorem histogramFrameFields : Obligations.HistogramFrameFields := by
  intro s r rest hs hl ha hacc
  obtain ⟨t, ht, hhist, hpresent⟩ := ending_validateRecord_hist
    (u := { answered .readHistogram .none r rest s with hist := some (histOf layoutV18_2 r), histPresent := true }) rfl
  refine ⟨t, _, (exec_readHistogram_accepted hs ha hl rfl hacc).trans ht, hhist, hpresent, ?_⟩
  simp [histOf_layoutV18_2, memRead_one, memRead_two, memRead_four]

/-! ## Surplus bytes (R33, R84) -/

/-- The end of an operation voids the frame and its length, so only the answer read from it remains (R108). -/
theorem finish_settled_receive (i : Instr) (a : Bool) (r r' : List Byte) (u : State) :
    finish (settled i { receive r' u with ack := a }) = finish (settled i { receive r u with ack := a }) := by
  cases i <;> rfl

/-- Validation sees the record and not the frame. -/
theorem ending_validateRecord_receive (h : Hist) (r r' : List Byte) (u : State) :
    ending (validateRecord { receive r' u with hist := some h, histPresent := true }) =
      ending (validateRecord { receive r u with hist := some h, histPresent := true }) := by
  by_cases hv : validFlag h = true
  · simp only [validateRecord, if_pos hv]
    rfl
  · simp only [validateRecord, if_neg hv]
    rfl

section SameStart

variable {u : State} {r r' : List Byte}

/-- READ_HISTOGRAM ends the same on accepted frames that agree up to `HIST_LEN` (R45, R116). -/
theorem ending_decodeHist_receive (hf : frameAccepted .readHistogram (receive r u))
    (hf' : frameAccepted .readHistogram (receive r' u)) (h : r'.take u.cfg.histLen = r.take u.cfg.histLen) :
    ending ((decodeHist (receive r' u)).andThen validateRecord) =
      ending ((decodeHist (receive r u)).andThen validateRecord) := by
  cases hl : u.layout with
  | none => rw [decodeHist_noLayout hf' hl, decodeHist_noLayout hf hl]
  | some id =>
    cases hd : u.cfg.layoutOf id with
    | none => rw [decodeHist_unknownLayout hf' hl hd, decodeHist_unknownLayout hf hl hd]
    | some l =>
      rw [decodeHist_receive hf' hl hd, decodeHist_receive hf hl hd, eq_of_take_eq (histOf_take hd le_rfl) h]
      exact ending_validateRecord_receive _ r r' u

/-- READ_CONFIG ends the same on accepted frames that agree up to `CFG_LEN` (R42, R117). -/
theorem ending_decodeCfg_receive (hf : frameAccepted .readConfig (receive r u))
    (hf' : frameAccepted .readConfig (receive r' u)) (h : r'.take u.cfg.cfgLen = r.take u.cfg.cfgLen) :
    ending (decodeCfg (receive r' u)) = ending (decodeCfg (receive r u)) := by
  rw [decodeCfg_receive hf', decodeCfg_receive hf, eq_of_take_eq (configOf_take (le_rlen_readConfig u.cfg)) h]
  rfl

/-- OPEN ends the same on accepted frames that agree up to `INFO_LEN` (R93, R109). -/
theorem afterHandshake_decodeInfo_receive (hf : frameAccepted .info (receive r u))
    (hf' : frameAccepted .info (receive r' u)) (h : r'.take u.cfg.infoLen = r.take u.cfg.infoLen) :
    afterHandshake (decodeInfo (receive r' u)) = afterHandshake (decodeInfo (receive r u)) := by
  have hrx : u.cfg.infoLen ≤ u.cfg.rxMax := rlen_le_rxMax u.cfg .info
  have hraw (x : List Byte) : (receive x u).rxbuf.take u.cfg.infoLen = x.take u.cfg.infoLen := by
    rw [receive, List.take_take, Nat.min_eq_left hrx]
  simp only [decodeInfo, checkLength_ok hf, checkLength_ok hf', andThen_go, receive_cfg, hraw, h]
  cases classify u.cfg.sigs (slice (r.take u.cfg.infoLen) (trim u.cfg.ws (r.take u.cfg.infoLen)).1
    (trim u.cfg.ws (r.take u.cfg.infoLen)).2) <;> rfl

/-- Operations 1 to 10 end the same on accepted frames that agree up to the expected length. -/
theorem ending_afterExchange_receive {i : Instr} {k : CmdKind} (hk : i.kind = some k) (ho : i ≠ .openSession)
    (hf : frameAccepted k (receive r u)) (hf' : frameAccepted k (receive r' u))
    (h : r'.take (u.cfg.rlen k) = r.take (u.cfg.rlen k)) :
    ending (afterExchange i (receive r' u)) = ending (afterExchange i (receive r u)) := by
  rcases response_cases hk with hack | rfl | rfl | rfl
  · rw [afterExchange_receive_ack hk hack hf', afterExchange_receive_ack hk hack hf,
      eq_of_take_eq (acked_take hack le_rfl) h]
    exact congrArg Host.Outcome.next (finish_settled_receive i _ r r' u)
  · exact absurd rfl ho
  · cases hk
    exact ending_decodeHist_receive hf hf' h
  · cases hk
    exact ending_decodeCfg_receive hf hf' h

end SameStart

/-- Settles O45: with and without the surplus the frame is accepted and begins with the same `RLEN` bytes, and no operation
looks further. -/
theorem surplusBytesAreIgnored : Obligations.SurplusBytesAreIgnored := by
  intro i k s r tail rest hk hA hstrict hlen
  have hf : Accepted s.cfg k r := accepted_of_rlen_le hstrict hlen
  have hf' : Accepted s.cfg k (r ++ tail) := accepted_of_rlen_le hstrict (hlen.trans (by simp))
  have hsame : (r ++ tail).take (s.cfg.rlen k) = r.take (s.cfg.rlen k) := List.take_append_of_le_length hlen
  by_cases ho : i = .openSession
  · subst ho
    cases hk
    have hs : s.session = .uninitialized := hA.uninitialized
    rw [exec_open_bytes (s := { s with answers := .bytes (r ++ tail) :: rest }) hs rfl,
      exec_open_bytes (s := { s with answers := .bytes r :: rest }) hs rfl]
    exact afterHandshake_decodeInfo_receive (u := handshake rest s) hf hf' hsame
  · have hs : s.session = .ready := hA.ready ho
    rw [exec_bus_bytes (s := { s with answers := .bytes (r ++ tail) :: rest }) hk ho hs rfl hA.inRange,
      exec_bus_bytes (s := { s with answers := .bytes r :: rest }) hk ho hs rfl hA.inRange]
    exact ending_afterExchange_receive (u := called k i.operand rest (clearErrors s)) hk ho hf hf' hsame

/-! ## Repeated commands (R35, R161) -/

/-- What the transport is handed for a command (R106). -/
def commandCall (c : Cfg) (k : CmdKind) (v : Operand) : BusCall where
  out := c.command k v
  settle := c.settle.get k
  expected := c.rlen k

/-- An acknowledged exchange as the next operation finds it: Ready under the same configuration, one answer used, one
exchange counted and recorded. -/
theorem exec_ack_accepted_sends {i : Instr} {k : CmdKind} (hk : i.kind = some k) (hack : k.response = .ack)
    (hop : checkOperand i.operand = none) {s : State} {r : List Byte} {rest : List Answer} (hs : s.session = .ready)
    (ha : s.answers = .bytes r :: rest) (hacc : Accepted s.cfg k r) :
    ∃ t, exec i s = .next t ∧ t.session = .ready ∧ t.cfg = s.cfg ∧ t.answers = rest ∧ t.ack = acked s.cfg r ∧
      t.xferCount = s.xferCount + 1 ∧ t.bus = commandCall s.cfg k i.operand :: s.bus := by
  refine ⟨_, exec_ack_accepted hs ha hk hack hop hacc, ?_⟩
  simp [answered, called, commandCall, hs]

/-- Settles O46: the first LASER_ON ends in Ready with the second answer still to come, so the second runs the same way. -/
theorem repeatedToggleIsSentAgain : Obligations.RepeatedToggleIsSentAgain := by
  intro s a b rest hs ha hacca haccb
  obtain ⟨t, ht, hst, hct, hat, hackt, hxt, hbt⟩ := exec_ack_accepted_sends (i := .laserOn) rfl rfl rfl hs ha hacca
  obtain ⟨u, hu, -, -, -, hacku, hxu, hbu⟩ :=
    exec_ack_accepted_sends (i := .laserOn) rfl rfl rfl hst hat (hct ▸ haccb)
  rw [hct] at hacku hbu
  exact ⟨t, u, ht, hu, hackt, hacku, by rw [hxu, hxt], commandCall s.cfg .laserOn .none, List.append_nil _,
    by rw [hbu, hbt]; rfl⟩

end Machine
end Sys2Proof
end

section
/-! PROOFS of the statements of spec/30_encoding.md: commands and bytes decode to each other (R52, R61, R62), and the default
command bytes and table words (R60). -/

namespace Sys2Proof

open Sys2Proof.Machine Sys2Proof.Expect

/-! ## Encodings decode back (R52, R61) -/

/-- The leading bytes give the kind, the length is the kind's, and the bytes after the lead give the operation. -/
theorem decodeCommand_command (c : Cfg) {i : Instr} {k : CmdKind} (hk : i.kind = some k)
    (hi : checkOperand i.operand = none) : c.decodeCommand (c.command k i.operand) = .instr i := by
  have hlen : (c.lead k ++ i.operand.var).length = c.totalLength k := by
    rw [List.length_append, length_var hk, Params.totalLength]
  have hvar : k.instr i.operand.var = i := by simpa using instr_var_append hk hi []
  rw [Params.command, Params.decodeCommand, kindOf_lead]
  simp only [if_pos hlen, List.drop_left, hvar]

/-- A local operation is read back from its selector and index (log 11). -/
theorem decode_select (p : Params) {i : Instr} (hk : i.kind = none) : p.decode (.select i.op i.index) = .instr i := by
  cases i with
  | validate | binbound | close => rfl
  | openSession | laserOn | laserOff | fanOn | fanOff | setFanPower | setLaserPower | readHistogram | readConfig | writeConfig
  | saveConfig => cases hk

/-- Settles O7: a bus operation by its command bytes, a local one by its selector. -/
theorem encodedOperationsDecodeBack : Obligations.EncodedOperationsDecodeBack := by
  intro c i hi
  rw [Params.encode]
  cases hk : i.kind with
  | some k => exact decodeCommand_command c hk hi
  | none => exact decode_select c.toParams hk

/-! ## The bytes of a field written back (R36 to R39) -/

/-- The bytes of a value read from inside a frame are the frame's own. -/
theorem leBytes_memRead {f : List Byte} {a n : Nat} (h : a + n ≤ f.length) :
    leBytes n (memRead f a n) = (f.drop a).take n := by
  have hlen : ((f.drop a).take n).length = n := by simp; omega
  have hb := leBytes_leValue ((f.drop a).take n)
  rwa [hlen] at hb

/-- A field widened to an operand keeps its bytes. -/
theorem intBytes_memRead {f : List Byte} {a n : Nat} (h : a + n ≤ f.length) :
    intBytes n (memRead f a n) = (f.drop a).take n := by
  have hlt : (memRead f a n : Int) < 256 ^ n := by exact_mod_cast memRead_lt f a n
  rw [intBytes, Int.emod_eq_of_lt (Int.natCast_nonneg _) hlt, Int.toNat_natCast, leBytes_memRead h]

/-- Fields of `w` bytes that lie side by side from `a` on, written back one after the other. -/
theorem flatMap_ofFn_fields {α : Type} {f : List Byte} {a w m : Nat} {g : α → List Byte} {v : Fin m → α}
    (h : ∀ i : Fin m, g (v i) = (f.drop (a + w * i)).take w) : (List.ofFn v).flatMap g = (f.drop a).take (w * m) := by
  induction m with
  | zero => simp
  | succ m ih =>
    have hlast : g (v (Fin.last m)) = ((f.drop a).drop (w * m)).take w := by rw [h, List.drop_drop, Fin.val_last]
    rw [List.ofFn_succ', List.concat_eq_append, List.flatMap_append, ih fun i => h i.castSucc, List.flatMap_singleton, hlast,
      Nat.mul_succ, List.take_add]

section Frame

variable {f : List Byte} (hf : f.length = 232)
include hf

/-- The boundaries of a parsed record have the first 30 bytes as their image (R42). -/
theorem bb_image : (configOf f).widen.bb.toList.flatMap (intBytes 2) = f.take (2 * 15) := by
  rw [configOf, ConfigR.widen, Vector.toList_map, Vector.toList_ofFn, List.flatMap_map]
  refine flatMap_ofFn_fields (a := 0) fun i => ?_
  rw [toNat_u16At, intBytes_memRead (by omega), Nat.zero_add]

/-- 16 patterns parsed from offset `a` on have the 64 bytes there as their image. -/
theorem b32_image (a : Nat) (ha : a + 4 * 16 ≤ 232) :
    (Vector.ofFn fun i : Fin 16 => b32At f (a + 4 * i.val)).toList.flatMap (fun x => leBytes 4 x.toNat) =
      (f.drop a).take (4 * 16) := by
  rw [Vector.toList_ofFn]
  refine flatMap_ofFn_fields fun i => ?_
  rw [toNat_b32At, leBytes_memRead (by omega)]

/-- The image of a record parsed from 232 bytes is those bytes: its parts in the order of R42 are adjacent (R69). -/
theorem packConfig_widen_configOf : packConfig (configOf f).widen = f := by
  rw [packConfig, bb_image hf]
  simp only [configOf, ConfigR.widen, b32_image hf 30 (by decide), b32_image hf 94 (by decide),
    b32_image hf 158 (by decide), toNat_b32At, toNat_byteAt]
  simp (disch := omega) only [leBytes_memRead, intBytes_memRead, ← List.take_add]
  exact List.take_of_length_le hf.le

end Frame

/-! ## Bytes decode to the operation whose command they are (R61, R62) -/

/-- A record parsed from a frame is in range, whatever the frame (R68, R85). -/
theorem inRange_widen (c : ConfigR) : InRange c.widen := by
  have hlaser := c.laserDac.isLt
  have hfan := c.fanDac.isLt
  refine ⟨fun i => ?_, ?_⟩
  · have hi := c.bb[i].isLt
    simp only [ConfigR.widen, Fin.getElem_fin, Vector.getElem_map] at hi ⊢
    omega
  · simp only [ConfigR.widen]
    omega

@[simp] theorem kind_instr (k : CmdKind) (v : List Byte) : (k.instr v).kind = some k := by cases k <;> rfl

/-- A byte read as a level is in range (R67). -/
theorem checkPower_memRead (v : List Byte) : checkPower (memRead v 0 1) = none := by
  have h := memRead_lt v 0 1
  exact checkPower_none.mpr ⟨by omega, by omega⟩

/-- The operand of an operation read from bytes is in range, whatever the bytes. -/
theorem checkOperand_instr (k : CmdKind) (v : List Byte) : checkOperand (k.instr v).operand = none := by
  cases k with
  | setFanPower | setLaserPower => exact checkPower_memRead v
  | writeConfig => exact checkConfig_none.mpr (inRange_widen _)
  | info | laserOn | laserOff | fanOn | fanOff | readHistogram | readConfig | saveConfig => rfl

/-- The `VAR` bytes of an operation read from bytes of the kind's length are those bytes (R58, R59). -/
theorem var_instr {k : CmdKind} {v : List Byte} (hv : v.length = k.format.varLen) : (k.instr v).operand.var = v := by
  cases k with
  | setFanPower | setLaserPower => exact (intBytes_memRead hv.ge).trans (List.take_of_length_le hv.le)
  | writeConfig => exact packConfig_widen_configOf hv
  | info | laserOn | laserOff | fanOn | fanOff | readHistogram | readConfig | saveConfig =>
    exact (List.eq_nil_of_length_eq_zero hv).symm

/-- The kind of a byte sequence is one whose leading bytes it begins with (R61). -/
theorem lead_of_kindOf {p : Params} {s : List Byte} {k : CmdKind} (h : p.kindOf s = some k) : ∃ v, s = p.lead k ++ v := by
  obtain ⟨v, hv⟩ := List.isPrefixOf_iff_prefix.mp (List.find?_some (p := fun k => (p.lead k).isPrefixOf s) h)
  exact ⟨v, hv.symm⟩

/-- Bytes that decode are a kind's leading bytes and as many more as its format says (R53, R61). -/
theorem decodeCommand_instr {p : Params} {s : List Byte} {i : Instr} (h : p.decodeCommand s = .instr i) :
    ∃ k v, s = p.lead k ++ v ∧ v.length = k.format.varLen ∧ i = k.instr v := by
  rw [Params.decodeCommand] at h
  cases hk : p.kindOf s with
  | none => simp [hk] at h
  | some k =>
    obtain ⟨v, rfl⟩ := lead_of_kindOf hk
    simp only [hk, List.drop_left] at h
    split at h
    case isTrue hlen =>
      cases h
      exact ⟨k, v, rfl, by simpa [Params.totalLength] using hlen, rfl⟩
    case isFalse => cases h

/-- Settles O8: the bytes after the lead are the operand's `VAR`, and every value they hold is in range. -/
theorem decodedBytesAreTheCommandOfTheOperation : Obligations.DecodedBytesAreTheCommandOfTheOperation := by
  intro c s i h
  obtain ⟨k, v, rfl, hv, rfl⟩ := decodeCommand_instr h
  exact ⟨checkOperand_instr k v, k, kind_instr k v, by rw [Params.command, var_instr hv]⟩

/-! ## The default configuration's bytes and words (R60) -/

/-- One byte of a natural number is its low eight bits (R66). -/
theorem intBytes_one_natCast (n : Nat) : intBytes 1 n = [BitVec.ofNat 8 n] := by
  have h : ((n : Int) % 256).toNat = n % 256 := by omega
  have hmod : BitVec.ofNat 8 (n % 256) = BitVec.ofNat 8 n := BitVec.eq_of_toNat_eq (by simp)
  simp [intBytes, leBytes, h, hmod]

/-- Settles O10: the fixed commands by evaluation, the two power commands for every level. -/
theorem defaultCommandBytes : Obligations.DefaultCommandBytes := by
  intro pp
  have hpower : ∀ k, Cfg.defaults.command k (.power pp.val) = Cfg.defaults.lead k ++ [BitVec.ofNat 8 pp.val] := fun k => by
    rw [Params.command, Operand.var, intBytes_one_natCast]
  exact ⟨rfl, rfl, rfl, rfl, rfl, hpower .setFanPower, hpower .setLaserPower, rfl, rfl, fun _ => rfl, rfl⟩

/-- Settles O11: ten fixed words, each evaluated. -/
theorem tableWordsDecode : Obligations.TableWordsDecode := ⟨rfl, rfl, rfl, rfl, rfl, rfl, rfl, rfl, rfl, rfl⟩

end Sys2Proof
end

section
/-! PROOFS of the statements of spec/40_command_encoder.md: the range checks (R67, R68) and the image of a configuration
record (R42, R69). -/

namespace Sys2Proof

open Sys2Proof.Machine Sys2Proof.Expect

/-! ## The image of a configuration record (R42, R69) -/

/-- A frame parsed as a record has each field at its offset of R42, least significant byte first. -/
theorem widen_configOf_fields {f : List Byte} {c : ConfigW} (h : (configOf f).widen = c) :
    (∀ i : Fin 15, (le16 f (2 * i) : Int) = c.bb[i]) ∧
    (∀ i : Fin 16, le32 f (30 + 4 * i) = c.bpv[i].toNat) ∧
    (∀ i : Fin 16, le32 f (94 + 4 * i) = c.bpd[i].toNat) ∧
    (∀ i : Fin 16, le32 f (158 + 4 * i) = c.bsvw[i].toNat) ∧
    le32 f 222 = c.gsc.toNat ∧ le32 f 226 = c.sfr.toNat ∧
    (u8 f 230 : Int) = c.laserDac ∧ (u8 f 231 : Int) = c.fanDac := by
  have hle16 : ∀ a, (u16At f a).toNat = le16 f a := fun a => (toNat_u16At f a).trans (memRead_two f a)
  have hle32 : ∀ a, (b32At f a).toNat = le32 f a := fun a => (toNat_b32At f a).trans (memRead_four f a)
  have hu8 : ∀ a, ((byteAt f a).toNat : Int) = u8 f a := fun a =>
    congrArg Nat.cast ((toNat_byteAt f a).trans (memRead_one f a))
  subst h
  refine ⟨fun i => ?bounds, fun i => ?volumes, fun i => ?densities, fun i => ?weightings, (hle32 222).symm, (hle32 226).symm,
    (hu8 230).symm, (hu8 231).symm⟩
  case bounds => simp [ConfigR.widen, configOf, -toNat_u16At, hle16]
  case volumes | densities | weightings => simp [ConfigR.widen, configOf, -toNat_b32At, hle32]

/-- Settles O12: the image parses back to the record, so each field of the record is what lies at the field's offset. -/
theorem configImageReadsBack : Obligations.ConfigImageReadsBack := by
  intro c hc tail
  have hback : (configOf (packConfig c)).widen = c := by simpa using widen_configOf_packConfig [] hc
  obtain ⟨hbb, hbpv, hbpd, hbsvw, hgsc, hsfr, hlaser, hfan⟩ := widen_configOf_fields hback
  exact ⟨length_packConfig c, hbb, hbpv, hbpd, hbsvw, hgsc, hsfr, hlaser, hfan, widen_configOf_packConfig tail hc⟩

namespace Machine

/-! ## Which operand a range check reports (R67, R68) -/

theorem checkPower_out {p : Int} (h : p < 0 ∨ 255 < p) : checkPower p = some (.range 0 p) := if_pos h

theorem checkDac_out {f : BitVec 6} {v : Int} (h : v < 0 ∨ 255 < v) : checkDac f v = some (.range f v) := if_pos h

section Config

variable {c : ConfigW}

theorem checkConfig_bb_out (i : Fin 15) (hlow : ∀ j : Fin 15, j < i → 0 ≤ c.bb[j] ∧ c.bb[j] ≤ 65535)
    (hout : c.bb[i] < 0 ∨ 65535 < c.bb[i]) : checkConfig c = some (.range (BitVec.ofNat 6 (2 + i)) c.bb[i]) := by
  have hfirst : checkBoundaries 2 c.bb.toList = some (.range (BitVec.ofNat 6 (2 + i)) c.bb[i]) :=
    checkBoundaries_first (l := c.bb.toList) (i := i) (by simp) (fun j hj => hlow ⟨j, hj.trans i.isLt⟩ hj) hout
  rw [checkConfig, hfirst]

variable (hbb : ∀ j : Fin 15, 0 ≤ c.bb[j] ∧ c.bb[j] ≤ 65535)
include hbb

theorem checkBoundaries_bb_none : checkBoundaries 2 c.bb.toList = none :=
  checkBoundaries_none.mpr fun v hv => by
    obtain ⟨i, hi, rfl⟩ := Vector.mem_iff_getElem.mp (Vector.mem_toList_iff.mp hv)
    exact hbb ⟨i, hi⟩

theorem checkConfig_laserDac_out (hout : c.laserDac < 0 ∨ 255 < c.laserDac) :
    checkConfig c = some (.range 17 c.laserDac) := by
  simp only [checkConfig, checkBoundaries_bb_none hbb, checkDac_out hout]

theorem checkConfig_fanDac_out (hl0 : 0 ≤ c.laserDac) (hl1 : c.laserDac ≤ 255) (hout : c.fanDac < 0 ∨ 255 < c.fanDac) :
    checkConfig c = some (.range 18 c.fanDac) := by
  simp only [checkConfig, checkBoundaries_bb_none hbb, checkDac_none.mpr ⟨hl0, hl1⟩, checkDac_out hout]

end Config

/-! ## An operand out of range (R66, R133) -/

/-- In Ready, an operand that fails its check is reported before anything is sent, and nothing else changes. -/
theorem exec_operand_out {i : Instr} {k : CmdKind} {s : State} {f : BitVec 6} {v : Int} (hk : i.kind = some k)
    (ho : i ≠ .openSession) (hs : s.session = .ready) (hv : checkOperand i.operand = some (.range f v)) :
    exec i s = .next { turnedAway .range s with errField := f, errValue := v } := by
  rw [exec_bus_ready hk ho hs, sendCommand_range hv, andThen_raise, ending_raise]
  rfl

/-- Settles O28: both power commands carry the level that the one check refuses. -/
theorem powerLevelOutOfRangeSendsNothing : Obligations.PowerLevelOutOfRangeSendsNothing := fun _ p hs =>
  ⟨fun hp => ⟨exec_operand_out (i := .setFanPower p) rfl nofun hs (checkPower_out hp),
      exec_operand_out (i := .setLaserPower p) rfl nofun hs (checkPower_out hp)⟩,
    fun h0 h1 => checkPower_none.mpr ⟨h0, h1⟩⟩

/-- Settles O29: the check reports the first field out of range, and WRITE_CONFIG answers with that report. -/
theorem configOutOfRangeReportsTheFirstField : Obligations.ConfigOutOfRangeReportsTheFirstField := by
  intro s c hs
  have hreport : ∀ {f v}, checkConfig c = some (.range f v) →
      exec (.writeConfig c) s = .next { turnedAway .range s with errField := f, errValue := v } :=
    fun h => exec_operand_out (i := .writeConfig c) rfl nofun hs h
  exact ⟨fun i hlow hout => hreport (checkConfig_bb_out i hlow hout),
    fun hbb hout => hreport (checkConfig_laserDac_out hbb hout),
    fun hbb hl0 hl1 hout => hreport (checkConfig_fanDac_out hbb hl0 hl1 hout), checkConfig_none.mpr⟩

end Machine
end Sys2Proof
end

section
/-! PROOFS of the statements of spec/41_response_decoder.md: where the trimmed range of an info frame begins and ends
(R94). -/

namespace Sys2Proof.Machine

/-! ## Where trimming stops (R94) -/

section Trim

variable {ws raw : List Byte} {b : Byte} {i : Nat}

/-- The byte after the leading run of whitespace is not whitespace. -/
theorem not_mem_ws_after_run {l : List Byte} (hb : l[(l.takeWhile fun x => ws.contains x).length]? = some b) :
    b ∉ ws := by
  induction l with
  | nil => simp at hb
  | cons a l ih =>
    by_cases ha : a ∈ ws
    · exact ih (by simpa [ha] using hb)
    · have hab : a = b := by simpa [ha] using hb
      exact hab ▸ ha

theorem trim_lo_not_mem_ws (hb : raw[(trim ws raw).1]? = some b) : b ∉ ws :=
  not_mem_ws_after_run hb

/-- When something is kept, the last byte kept is the one after the leading run of the reversed string. -/
theorem trim_hi_sub_one_not_mem_ws (hkept : (trim ws raw).1 < (trim ws raw).2)
    (hb : raw[(trim ws raw).2 - 1]? = some b) : b ∉ ws := by
  set back := (raw.reverse.takeWhile fun x => ws.contains x).length with hback
  have hhi : (trim ws raw).2 = raw.length - back :=
    (max_choice _ _).resolve_left hkept.ne'
  have hlt : back < raw.length := by omega
  refine not_mem_ws_after_run (l := raw.reverse) ?_
  rw [← hback, List.getElem?_reverse hlt, ← hb, hhi, Nat.sub_right_comm]

theorem mem_ws_of_lt_trim_lo (hi : i < (trim ws raw).1) (hb : raw[i]? = some b) : b ∈ ws :=
  mem_ws_of_trimmed_off <| List.mem_append_left _ <|
    List.mem_of_getElem? ((List.getElem?_take_of_lt hi).trans hb)

theorem mem_ws_of_trim_hi_le (hi : (trim ws raw).2 ≤ i) (hb : raw[i]? = some b) : b ∈ ws := by
  have hdrop : (raw.drop (trim ws raw).2)[i - (trim ws raw).2]? = some b := by
    rw [List.getElem?_drop, Nat.add_sub_cancel' hi, hb]
  exact mem_ws_of_trimmed_off (List.mem_append_right _ (List.mem_of_getElem? hdrop))

/-- A byte at `lo` would not be whitespace, so in a string of whitespace alone there is none. -/
theorem trim_of_all_ws (hall : ∀ b ∈ raw, b ∈ ws) : (trim ws raw).1 = raw.length ∧ (trim ws raw).2 = raw.length := by
  have hlo : raw.length ≤ (trim ws raw).1 := by
    by_contra! hlt
    exact trim_lo_not_mem_ws (List.getElem?_eq_getElem hlt) (hall _ (List.getElem_mem hlt))
  have hle := trim_lo_le_hi ws raw
  have hlen := trim_hi_le_length ws raw
  omega

end Trim

/-- Settles O48: the bytes before `lo` and from `hi` on are whitespace, the bytes at `lo` and before `hi` are not. -/
theorem trimFindsTheEnds : Obligations.TrimFindsTheEnds := by
  intro ws raw
  have hlast : (trim ws raw).1 < (trim ws raw).2 → ∃ b, raw[(trim ws raw).2 - 1]? = some b ∧ b ∉ ws := by
    intro hkept
    have hlen := trim_hi_le_length ws raw
    have hb := List.getElem?_eq_getElem (show (trim ws raw).2 - 1 < raw.length by omega)
    exact ⟨_, hb, trim_hi_sub_one_not_mem_ws hkept hb⟩
  exact ⟨_, _, rfl, trim_lo_le_hi ws raw, trim_hi_le_length ws raw, fun _ _ => mem_ws_of_lt_trim_lo,
    fun _ => trim_lo_not_mem_ws, fun _ _ => mem_ws_of_trim_hi_le, hlast, trim_of_all_ws, rfl, by decide⟩

end Sys2Proof.Machine
end

section
/-! PROOFS of the statements of spec/42_checksum_validator.md: the sum the Checksum Validator compares with `CKSUM` (R99). -/

namespace Sys2Proof.Machine

open Sys2Proof.Expect

section Sum

variable {bin other : Vector U16 16}

theorem sum16_eq_ofNat_binSum : sum16 bin = BitVec.ofNat 16 (binSum bin) := rfl

/-- Sixteen bins of at most 65535 each. -/
theorem binSum_le : binSum bin ≤ 1048560 := by
  have hbins : ∀ n ∈ bin.toList.map BitVec.toNat, n ≤ 65535 := by
    simp only [List.mem_map]
    rintro _ ⟨b, -, rfl⟩
    exact Nat.le_of_lt_succ b.isLt
  simpa [binSum] using List.sum_le_card_nsmul _ _ hbins

theorem binSum_eq_of_perm (h : bin.toList.Perm other.toList) : binSum other = binSum bin :=
  (h.map BitVec.toNat).sum_eq.symm

/-- Dropping the carry at every addition or once at the end is the same, whatever the accumulator starts from. -/
theorem foldl_add_eq_add_ofNat_sum (bins : List U16) (acc : U16) :
    bins.foldl (· + ·) acc = acc + BitVec.ofNat 16 (bins.map BitVec.toNat).sum := by
  induction bins generalizing acc with
  | nil => simp
  | cons b bins ih => simp [ih, BitVec.ofNat_add, add_assoc]

theorem sum16_eq_foldl_add : sum16 bin = bin.toList.foldl (· + ·) 0 := by
  rw [foldl_add_eq_add_ofNat_sum, zero_add]
  rfl

end Sum

/-- Settles O47: `sum16` is `binSum` in 16 bits, and neither where the carries are dropped nor the order matters. -/
theorem sum16IsTheSumModulo65536 : Obligations.Sum16IsTheSumModulo65536 := by
  intro bin
  have hmod : (sum16 bin).toNat = binSum bin % 65536 := by
    rw [sum16_eq_ofNat_binSum, BitVec.toNat_ofNat]
  have hperm (other : Vector U16 16) (h : bin.toList.Perm other.toList) : sum16 other = sum16 bin := by
    rw [sum16_eq_ofNat_binSum, binSum_eq_of_perm h, sum16_eq_ofNat_binSum]
  exact ⟨hmod, binSum_le, sum16_eq_foldl_add, hperm⟩

end Sys2Proof.Machine
end

section
/-! PROOFS of the statements of spec/43_operations.md: the next state of each operation that completes (R109 to R119, R122 to
R124), when a step ends (R107, R163), and what holds of every operation that ends (section 9 of 10_state.md, R120, R121). -/

namespace Sys2Proof.Machine

open Sys2Proof.Expect

/-! ## Operations with an ACK response (R110 to R115, R118, R119) -/

section ReadyAnswered

variable {s : State} {r : List Byte} {rest : List Answer} (hs : s.session = .ready) (ha : s.answers = .bytes r :: rest)
include hs ha

/-- The whole next state: the exchange, `ACK`, and the power sub-state where the operation is a toggle. -/
theorem exec_ack_completes {i : Instr} {k : CmdKind} (hk : i.kind = some k) (hack : k.response = .ack)
    (hop : checkOperand i.operand = none) (hacc : Accepted s.cfg k r) :
    exec i s = .next (settled i { sent k i.operand rest s with ack := acked s.cfg r }) := by
  rw [exec_ack_accepted hs ha hk hack hop hacc]
  cases i <;> rfl

theorem exec_readConfig_completes (hacc : Accepted s.cfg .readConfig r) :
    exec .readConfig s = .next { sent .readConfig .none rest s with cfgr := some (configOf r), cfgPresent := true } := by
  have hf : frameAccepted .readConfig (receive r (called .readConfig .none rest (clearErrors s))) := hacc
  rw [exec_bus_bytes (i := .readConfig) rfl nofun hs ha rfl]
  exact congrArg ending (decodeCfg_receive hf)

end ReadyAnswered

/-- Settles O16: each toggle is an operation with an ACK response that moves its own power sub-state. -/
theorem togglesComplete : Obligations.TogglesComplete := fun _ _ _ hs ha =>
  ⟨exec_ack_completes hs ha (i := .laserOn) rfl rfl rfl, exec_ack_completes hs ha (i := .laserOff) rfl rfl rfl,
    exec_ack_completes hs ha (i := .fanOn) rfl rfl rfl, exec_ack_completes hs ha (i := .fanOff) rfl rfl rfl⟩

theorem intBytes_one_of_nonneg {p : Int} (hp : 0 ≤ p) : intBytes 1 p = [BitVec.ofInt 8 p] := by
  obtain ⟨n, rfl⟩ := Int.eq_ofNat_of_zero_le hp
  rw [intBytes_one_natCast, BitVec.ofInt_natCast]

/-- Settles O17: a level in range passes the check and is the one byte of `VAR`. -/
theorem powerCommandsComplete : Obligations.PowerCommandsComplete := by
  intro s r rest p hs ha h0 h255
  have hop : checkOperand (.power p) = none := checkPower_none.mpr ⟨h0, h255⟩
  have hbyte (k : CmdKind) : s.cfg.command k (.power p) = s.cfg.lead k ++ [BitVec.ofInt 8 p] :=
    congrArg (s.cfg.lead k ++ ·) (intBytes_one_of_nonneg h0)
  exact ⟨exec_ack_completes hs ha (i := .setFanPower p) rfl rfl hop,
    exec_ack_completes hs ha (i := .setLaserPower p) rfl rfl hop, hbyte .setFanPower, hbyte .setLaserPower⟩

/-- Settles O18: neither operation does more than write `ACK`. -/
theorem writeAndSaveConfigComplete : Obligations.WriteAndSaveConfigComplete := fun _ _ _ c hs ha =>
  ⟨fun hc => exec_ack_completes hs ha (i := .writeConfig c) rfl rfl (checkConfig_none.mpr hc),
    exec_ack_completes hs ha (i := .saveConfig) rfl rfl rfl⟩

/-! ## READ_CONFIG (R117) -/

/-- Settles O21: the record is the frame parsed, and each field of it is little-endian at its offset of R42. -/
theorem readConfigCompletes : Obligations.ReadConfigCompletes := by
  intro s r rest hs ha hacc
  refine ⟨_, exec_readConfig_completes hs ha hacc, ?_⟩
  simp [configOf, memRead_one, memRead_two, memRead_four]

/-! ## READ_HISTOGRAM and VALIDATE (R116, R122) -/

section Verdict

variable {u : State} {h : Hist} (hh : u.hist = some h)
include hh

theorem ending_validateRecord_holds (hv : ChecksumHolds h) :
    ending (validateRecord u) = .next (finish { u with valid := true }) := by
  simp [validateRecord, hh, (validFlag_iff h).mpr hv]

theorem ending_validateRecord_fails (hv : ¬ ChecksumHolds h) :
    ending (validateRecord u) = .next (finish (recordError .checksum { u with valid := false })) := by
  have hflag : ¬ validFlag h = true := mt (validFlag_iff h).mp hv
  simp [validateRecord, hh, hflag]

end Verdict

/-- Settles O19: the record of the frame is written, then judged. -/
theorem readHistogramCompletes : Obligations.ReadHistogramCompletes := by
  intro s r rest id l hs hl hd ha hacc
  have e := exec_readHistogram_accepted hs ha hl hd hacc
  exact ⟨fun hv => e.trans (ending_validateRecord_holds rfl hv), fun hv => e.trans (ending_validateRecord_fails rfl hv)⟩

/-- VALIDATE passes the gate in every session state, and with a record present it is the validation step. -/
theorem exec_validate_present {s : State} (hp : s.histPresent = true) :
    exec .validate s = ending (validateRecord (clearErrors s)) := by
  rw [exec, execValidate, operation_eq, gate_local (by simp [Instr.op])]
  simp [hp]

/-- Settles O23: the record held is judged. -/
theorem validateCompletes : Obligations.ValidateCompletes := by
  intro s h hp hh
  have e := exec_validate_present hp
  exact ⟨fun hv => e.trans (ending_validateRecord_holds hh hv), fun hv => e.trans (ending_validateRecord_fails hh hv)⟩

/-! ## OPEN on a known signature (R93 to R95, R109) -/

/-- Signatures are pairwise distinct, so the first one found is the one meant (R6, R95). -/
theorem classify_sig {c : Cfg} {g : Signature} (hg : g ∈ c.sigs) : classify c.sigs g.bytes = some g.layout := by
  cases hc : classify c.sigs g.bytes with
  | none => exact absurd rfl (classify_none hc g hg)
  | some m =>
    obtain ⟨x, hx, hbytes, rfl⟩ := classify_some hc
    rw [distinct_unique c.sigs_distinct hx hg hbytes]

/-- A leading run of whitespace ends where bytes begin whose first is not whitespace. -/
theorem takeWhile_ws_append {ws pre l : List Byte} (hpre : ∀ b ∈ pre, b ∈ ws)
    (hl : l.head?.all fun b => !ws.contains b) : (pre ++ l).takeWhile (fun b => ws.contains b) = pre := by
  have hend : l.takeWhile (fun b => ws.contains b) = [] := by
    cases l with
    | nil => rfl
    | cons b l => simpa using hl
  rw [List.takeWhile_append_of_pos (by simpa using hpre), hend, List.append_nil]

/-- Trimming keeps exactly a clean signature between whitespace (R6, R94). -/
theorem trim_clean {ws pre x post : List Byte} (hx : cleanSignature ws x = true) (hpre : ∀ b ∈ pre, b ∈ ws)
    (hpost : ∀ b ∈ post, b ∈ ws) : trim ws (pre ++ x ++ post) = (pre.length, pre.length + x.length) := by
  simp only [cleanSignature, Bool.and_eq_true] at hx
  obtain ⟨⟨hne, hhead⟩, hlast⟩ := hx
  have hnil : x ≠ [] := by simpa using hne
  have hfront : (pre ++ x ++ post).takeWhile (fun b => ws.contains b) = pre := by
    rw [List.append_assoc]
    refine takeWhile_ws_append hpre ?_
    rwa [List.head?_append_of_ne_nil _ hnil]
  have hback : (pre ++ x ++ post).reverse.takeWhile (fun b => ws.contains b) = post.reverse := by
    rw [List.reverse_append, List.reverse_append]
    refine takeWhile_ws_append (by simpa using hpost) ?_
    rwa [List.head?_append_of_ne_nil _ (by simpa using hnil), List.head?_reverse]
  simp only [trim, hfront, hback, List.length_append, List.length_reverse, Nat.add_sub_cancel, Prod.mk.injEq, true_and]
  exact Nat.max_eq_right (Nat.le_add_right _ _)

theorem slice_append (pre x post : List Byte) : slice (pre ++ x ++ post) pre.length (pre.length + x.length) = x := by
  rw [slice, ← List.length_append, List.take_left, List.drop_left]

/-- An accepted info frame whose trimmed content is a signature (R93); the receive buffer holds all of the content (R6, R11). -/
theorem decodeInfo_receive {u : State} {r : List Byte} {lo hi : Nat} {m : LayoutId} (hf : frameAccepted .info (receive r u))
    (htrim : trim u.cfg.ws (r.take u.cfg.infoLen) = (lo, hi))
    (hm : classify u.cfg.sigs (slice (r.take u.cfg.infoLen) lo hi) = some m) :
    decodeInfo (receive r u) = .go { receive r u with
      info := some { raw := r.take u.cfg.infoLen, lo := lo, hi := hi }, infoPresent := true, layout := some m } := by
  have hrx : u.cfg.infoLen ≤ u.cfg.rxMax := rlen_le_rxMax u.cfg .info
  have hraw : (receive r u).rxbuf.take u.cfg.infoLen = r.take u.cfg.infoLen := by
    rw [receive, List.take_take, Nat.min_eq_left hrx]
  simp only [decodeInfo, checkLength_ok hf, andThen_go, receive_cfg, hraw, htrim, hm]

/-- Settles O22: trimming finds the signature, and the signature its layout. -/
theorem openCompletesOnAKnownSignature : Obligations.OpenCompletesOnAKnownSignature := by
  intro s r pre post rest g hs ha hacc hg hraw hws
  have hf : frameAccepted .info (receive r (handshake rest s)) := hacc
  have htrim : trim s.cfg.ws (r.take s.cfg.infoLen) = (pre.length, pre.length + g.bytes.length) :=
    hraw ▸ trim_clean (Cfg.sig_clean hg) (fun b hb => hws b (List.mem_append_left _ hb))
      (fun b hb => hws b (List.mem_append_right _ hb))
  have hm : classify s.cfg.sigs (slice (r.take s.cfg.infoLen) pre.length (pre.length + g.bytes.length)) =
      some g.layout := by
    rw [hraw, slice_append]
    exact classify_sig hg
  rw [exec_open_bytes hs ha, decodeInfo_receive (u := handshake rest s) hf htrim hm]
  rfl

/-! ## BINBOUND and CLOSE (R123, R124) -/

/-- Settles O24: the presence check and the index check pass, and the boundary at the index is looked up. -/
theorem binboundCompletes : Obligations.BinboundCompletes := by
  intro s c i hp hc
  have hbb : boundary c i.val = some c.bb[i] := by simp [boundary]
  rcases exec_binbound_cases i.val s with ⟨h, -⟩ | ⟨-, h, -⟩ | ⟨-, -, h, -⟩ | ⟨-, -, x, h, e⟩
  · exact absurd hp (by simp [h])
  · omega
  · exact absurd hc (by simp [h])
  · cases hc.symm.trans h
    rw [e, hbb]
    rfl

/-- Settles O30: the index check comes after the presence check and before the lookup. -/
theorem binboundOutOfRangeKeepsBbout : Obligations.BinboundOutOfRangeKeepsBbout := by
  intro s i hp hi
  rcases exec_binbound_cases i s with ⟨h, -⟩ | ⟨-, -, e⟩ | ⟨-, h, -⟩ | ⟨-, h, -⟩
  · exact absurd hp (by simp [h])
  · exact e
  · exact absurd hi h
  · exact absurd hi h

/-- Settles O25: CLOSE passes the gate in every session state and writes `SESSION` alone. -/
theorem closeCompletes : Obligations.CloseCompletes := exec_close

/-! ## When an operation ends (R107, R163) -/

/-- Settles O36: an admitted operation goes on to its exchange, which has no answer to take. -/
theorem silentTransportStopsTheExchange : Obligations.SilentTransportStopsTheExchange := by
  rintro i s ⟨hop, ⟨rfl, hs⟩ | ⟨ho, hkind, hs⟩⟩ - ha
  · rw [exec_open_uninitialized hs, sendCommand_silent (s := { clearErrors s with session := .handshaking }) rfl ha]
    rfl
  · obtain ⟨k, hk⟩ := Option.isSome_iff_exists.mp hkind
    rw [exec_bus_ready hk ho hs, sendCommand_silent (s := clearErrors s) hop ha, andThen_stop, ending_stop]

section Inv

variable {s : State} (hs : Inv s)
include hs

/-- In Ready the layout is that of a signature, and every signature's layout has a descriptor (R7 (c), R19). -/
theorem layout_known_of_ready (hr : s.session = .ready) : ∃ id l, s.layout = some id ∧ s.cfg.layoutOf id = some l := by
  obtain ⟨hagree, hsig⟩ := hs.info
  obtain ⟨x, hx⟩ := Option.isSome_iff_exists.mp (hagree ▸ hs.results.layout_of_ready hr)
  obtain ⟨-, -, -, -, g, hg, -, hlayout⟩ := hsig x hx
  obtain ⟨l, hl⟩ := Cfg.layoutOf_sig hg
  exact ⟨g.layout, l, hlayout, hl⟩

/-- Any frame ends an operation 1 to 10: a bad length raises, and an accepted frame can be decoded. -/
theorem exec_bus_answered_ends {i : Instr} {k : CmdKind} (hk : i.kind = some k) (ho : i ≠ .openSession)
    (hr : s.session = .ready) (hop : checkOperand i.operand = none) {r : List Byte} {rest : List Answer}
    (ha : s.answers = .bytes r :: rest) : ∃ t, exec i s = .next t := by
  by_cases hacc : Accepted s.cfg k r
  · rcases response_cases hk with hack | rfl | rfl | rfl
    · exact ⟨_, exec_ack_completes hr ha hk hack hop hacc⟩
    · exact absurd rfl ho
    · cases hk
      obtain ⟨id, l, hl, hd⟩ := layout_known_of_ready hs hr
      obtain ⟨t, ht, -⟩ := ending_validateRecord_hist
        (u := { answered .readHistogram .none r rest s with hist := some (histOf l r), histPresent := true }) rfl
      exact ⟨t, (exec_readHistogram_accepted hr ha hl hd hacc).trans ht⟩
    · cases hk
      exact ⟨_, exec_readConfig_completes hr ha hacc⟩
  · have hf : ¬ frameAccepted k (receive r (called k i.operand rest (clearErrors s))) := hacc
    rw [exec_bus_bytes hk ho hr ha hop, afterExchange_bad hk ho hf]
    exact ⟨_, rfl⟩

theorem exec_bus_ends_or_silent {i : Instr} {k : CmdKind} (hk : i.kind = some k) (ho : i ≠ .openSession) :
    (∃ t, exec i s = .next t) ∨ (s.answers = [] ∧ exec i s = .fault .transportSilent) := by
  rcases exec_bus_cases hk ho s with ⟨-, e⟩ | ⟨-, -, e⟩ | ⟨-, _, _, -, -, e⟩ | ⟨-, -, ha, e⟩ | ⟨-, -, _, -, e⟩ |
    ⟨hr, hop, r, rest, ha, -⟩
  · exact .inl ⟨_, e⟩
  · exact .inl ⟨_, e⟩
  · exact .inl ⟨_, e⟩
  · exact .inr ⟨ha, e⟩
  · exact .inl ⟨_, e⟩
  · exact .inl (exec_bus_answered_ends hs hk ho hr hop ha)

/-- A good state stops an operation in no way but a silent transport: a presence flag of 1 promises a value, and the
register holds one (R14). -/
theorem exec_ends_or_silent (i : Instr) :
    (∃ t, exec i s = .next t) ∨ (s.answers = [] ∧ exec i s = .fault .transportSilent) := by
  obtain ⟨hhist, hcfgr, -⟩ := hs.presence
  cases i with
  | openSession =>
    rcases exec_open_cases s with ⟨-, e⟩ | ⟨-, -, e⟩ | ⟨-, ha, e⟩ | ⟨-, _, -, e⟩ |
      ⟨-, _, _, -, ⟨-, -, e⟩ | ⟨_, -, -, e⟩ | ⟨-, e⟩⟩
    · exact .inl ⟨_, e⟩
    · exact .inl ⟨_, e⟩
    · exact .inr ⟨ha, e⟩
    all_goals exact .inl ⟨_, e⟩
  | validate =>
    rcases exec_validate_cases s with ⟨-, e⟩ | ⟨hp, hnone, -⟩ | ⟨-, _, -, -, e⟩ | ⟨-, _, -, -, e⟩
    · exact .inl ⟨_, e⟩
    · simp [hp, hnone] at hhist
    · exact .inl ⟨_, e⟩
    · exact .inl ⟨_, e⟩
  | binbound x =>
    rcases exec_binbound_cases x s with ⟨-, e⟩ | ⟨-, -, e⟩ | ⟨hp, -, hnone, -⟩ | ⟨-, -, _, -, e⟩
    · exact .inl ⟨_, e⟩
    · exact .inl ⟨_, e⟩
    · simp [hp, hnone] at hcfgr
    · exact .inl ⟨_, e⟩
  | close => exact .inl ⟨_, exec_close s⟩
  | laserOn | laserOff | fanOn | fanOff | setFanPower | setLaserPower | readHistogram | readConfig | writeConfig
  | saveConfig => exact exec_bus_ends_or_silent hs rfl nofun

theorem step_ends_or_silent : (∃ t, step s = .next t) ∨ (s.answers = [] ∧ step s = .fault .transportSilent) := by
  rcases step_cases s with ⟨-, e⟩ | ⟨r, rest, i, -, -, e⟩ | ⟨r, rest, -, -, e⟩
  · exact .inl ⟨_, e⟩
  · rw [e]
    exact exec_ends_or_silent (hs.present r rest) i
  · exact .inl ⟨_, e⟩

end Inv

/-- Settles O6: a step either ends or meets an empty list of answers. -/
theorem everyStepEndsIfTheTransportAnswers : Obligations.EveryStepEndsIfTheTransportAnswers := by
  intro s hs
  rcases step_ends_or_silent hs with ⟨t, e⟩ | ⟨ha, e⟩ <;> rw [e]
  · exact ⟨fun _ => ⟨t, rfl⟩, nofun, nofun⟩
  · refine ⟨fun hne => absurd ha hne, ?_, nofun⟩
    rintro _ ⟨⟩
    exact ⟨rfl, ha⟩

/-! ## The error an operation ends with (R128) -/

/-- The value of `ERR` that each kind of error records. -/
def Error.code : Error → ErrCode
  | .transport => .transport
  | .framing _ _ => .framing
  | .firmware _ => .firmware
  | .checksum => .checksum
  | .range _ _ => .range
  | .closed => .closed
  | .notReady => .notReady

@[simp] theorem recordError_err (e : Error) (s : State) : (recordError e s).err = e.code := by cases e <;> rfl

/-- Settles O35: the two operations end without an error or in ChecksumMismatch only where they judged a record. -/
theorem validityIsTheVerdictOnTheRecord : Obligations.ValidityIsTheVerdictOnTheRecord := by
  intro i s t hi h herr
  rcases exec_next_cases h with ⟨e, he, rfl⟩ | ⟨k, rest, -, -, -, rfl⟩ | ⟨k, r, rest, -, -, -, -, rfl⟩ |
    ⟨k, r, rest, hk, hack, -, -, -, rfl⟩ | ⟨rfl, -⟩ | ⟨rfl, -, r, rest, l, -, -, ⟨hv, rfl⟩ | ⟨hv, rfl⟩⟩ | ⟨rfl, -⟩ |
    ⟨rfl, -, x, hx, ⟨hv, rfl⟩ | ⟨hv, rfl⟩⟩ | ⟨_, _, rfl, -⟩ | ⟨rfl, -⟩
  · -- turned away before the exchange
    rcases he with ⟨rfl, -⟩ | rfl | ⟨f, v, rfl, -⟩ <;> simp [Error.code] at herr
  · -- the transport failed
    simp [Error.code] at herr
  · -- the frame's length was not accepted
    simp [Error.code] at herr
  · -- an acknowledge frame
    rcases hi with rfl | rfl <;> cases hk
    cases hack
  · -- READ_CONFIG
    simp at hi
  · -- READ_HISTOGRAM, the checksum holds
    exact ⟨_, rfl, by simp [hv], by simp [answered, called]⟩
  · -- READ_HISTOGRAM, the checksum fails
    exact ⟨_, rfl, by simp [hv], by simp [Error.code]⟩
  · -- OPEN
    simp at hi
  · -- VALIDATE, the checksum holds
    exact ⟨x, hx, by simp [hv], by simp⟩
  · -- VALIDATE, the checksum fails
    exact ⟨x, by simpa using hx, by simp [hv], by simp [Error.code]⟩
  · -- BINBOUND
    simp at hi
  · -- CLOSE
    simp at hi

/-! ## `ACK` (R120) -/

/-- The receive buffer holds the status byte of an acknowledge frame (R7 (b), R11). -/
theorem ackFlag_take_rxMax {c : Cfg} {k : CmdKind} (hack : k.response = .ack) (r : List Byte) :
    ackFlag c (r.take c.rxMax) = acked c r := acked_take hack (rlen_le_rxMax c k) r

/-- Settles O42: `ACK` falls when the exchange starts and is written again only from an accepted frame. -/
theorem ackIsTheDevicesAnswer : Obligations.AckIsTheDevicesAnswer := by
  intro i k s t hk hack h
  rcases exec_next_cases h with ⟨e, he, rfl⟩ | ⟨j, rest, hj, -, -, rfl⟩ | ⟨j, r, rest, hj, -, -, -, rfl⟩ |
    ⟨j, r, rest, hj, -, -, ha, -, rfl⟩ | ⟨rfl, -⟩ | ⟨rfl, -⟩ | ⟨rfl, -⟩ | ⟨rfl, -⟩ | ⟨_, _, rfl, -⟩ | ⟨rfl, -⟩
  · -- turned away before the exchange
    rcases he with ⟨rfl, -⟩ | rfl | ⟨f, v, rfl, -⟩ <;> simp [Error.code]
  · -- the transport failed
    cases hk.symm.trans hj
    simp [Error.code, called, hack]
  · -- the frame's length was not accepted
    cases hk.symm.trans hj
    simp [Error.code, answered, called, hack]
  · -- an acknowledge frame
    cases hk.symm.trans hj
    simp [answered, called, ha, ackFlag_take_rxMax hack]
  · -- READ_CONFIG
    cases hk
    cases hack
  · -- READ_HISTOGRAM
    cases hk
    cases hack
  · -- OPEN
    cases hk
    cases hack
  · -- VALIDATE
    cases hk
  · -- BINBOUND
    cases hk
  · -- CLOSE
    cases hk

/-! ## Who writes what (10_state.md section 9) -/

theorem settled_laser_of_ne {i : Instr} (hon : i ≠ .laserOn) (hoff : i ≠ .laserOff) (u : State) :
    (settled i u).laser = u.laser := by
  cases i with
  | laserOn => exact absurd rfl hon
  | laserOff => exact absurd rfl hoff
  | openSession | fanOn | fanOff | setFanPower | setLaserPower | readHistogram | readConfig | writeConfig | saveConfig
  | validate | binbound | close => rfl

theorem settled_fan_of_ne {i : Instr} (hon : i ≠ .fanOn) (hoff : i ≠ .fanOff) (u : State) :
    (settled i u).fan = u.fan := by
  cases i with
  | fanOn => exact absurd rfl hon
  | fanOff => exact absurd rfl hoff
  | openSession | laserOn | laserOff | setFanPower | setLaserPower | readHistogram | readConfig | writeConfig | saveConfig
  | validate | binbound | close => rfl

/-- Settles O39: each way an operation can end names the registers it writes. -/
theorem onlyTheWritersWrite : Obligations.OnlyTheWritersWrite := by
  intro i s t h
  rcases exec_next_cases h with ⟨e, -, rfl⟩ | ⟨k, rest, hk, -, -, rfl⟩ | ⟨k, r, rest, hk, -, -, -, rfl⟩ |
    ⟨k, r, rest, hk, hack, -, -, -, rfl⟩ | ⟨rfl, -, r, rest, -, -, rfl⟩ |
    ⟨rfl, -, r, rest, l, -, -, ⟨-, rfl⟩ | ⟨-, rfl⟩⟩ |
    ⟨rfl, -, r, rest, -, -, ⟨-, rfl⟩ | ⟨m, -, rfl⟩⟩ |
    ⟨rfl, -, x, -, ⟨-, rfl⟩ | ⟨-, rfl⟩⟩ | ⟨x, c, rfl, -, -, rfl⟩ | ⟨rfl, rfl⟩
  · -- turned away before the exchange
    simp
  · -- the transport failed
    simp +contextual [called, hk]
  · -- the frame's length was not accepted
    simp +contextual [answered, called, hk]
  · -- an acknowledge frame
    simp +contextual [answered, called, hk, hack, settled_laser_of_ne, settled_fan_of_ne]
  -- a response with data, or a local operation
  all_goals simp [answered, called, CmdKind.response, Instr.kind]

/-! ## Exchanges are counted (R121) -/

/-- One operation. -/
theorem exec_counts_exchange {i : Instr} {s t : State} (h : exec i s = .next t) :
    t.xferCount = s.xferCount + reachedExchange i t ∧ t.bus.length = s.bus.length + reachedExchange i t := by
  rcases exec_next_cases h with ⟨e, he, rfl⟩ | ⟨k, rest, hk, -, -, rfl⟩ | ⟨k, r, rest, hk, -, -, -, rfl⟩ |
    ⟨k, r, rest, hk, -, -, -, -, rfl⟩ | ⟨rfl, -, r, rest, -, -, rfl⟩ |
    ⟨rfl, -, r, rest, l, -, -, ⟨-, rfl⟩ | ⟨-, rfl⟩⟩ |
    ⟨rfl, -, r, rest, -, -, ⟨-, rfl⟩ | ⟨m, -, rfl⟩⟩ |
    ⟨rfl, -, x, -, ⟨-, rfl⟩ | ⟨-, rfl⟩⟩ | ⟨x, c, rfl, -, -, rfl⟩ | ⟨rfl, rfl⟩
  · -- turned away before the exchange
    rcases he with ⟨rfl, -⟩ | rfl | ⟨f, v, rfl, -⟩ <;> simp [reachedExchange, Error.code]
  · -- the transport failed
    simp [reachedExchange, Error.code, called, hk]
  · -- the frame's length was not accepted
    simp [reachedExchange, Error.code, answered, called, hk]
  · -- an acknowledge frame
    simp [reachedExchange, answered, called, hk]
  -- a response with data, or a local operation
  all_goals exact ⟨rfl, rfl⟩

/-- What `tally` counts for a step from `s` that ends in `t`. -/
def tallied (s t : State) : Nat :=
  match nextOperation s with
  | .run i _ => reachedExchange i t
  | .idle | .unassigned _ => 0

theorem tallied_of_unassigned {s : State} {r : Request} {rest : List Request} (hs : s.requests = r :: rest)
    (hop : r.op = 14 ∨ r.op = 15) (t : State) : tallied s t = 0 := by
  rcases hop with h | h <;> simp [tallied, nextOperation, decodeRequest, hs, h]

/-- A tally of `n + 1` steps is one step and a tally of the others. -/
theorem tally_succ {n m : Nat} {s u : State} (h : tally (n + 1) s = some (m, u)) :
    ∃ t m', step s = .next t ∧ tally n t = some (m', u) ∧ m = tallied s t + m' := by
  cases hstep : step s with
  | fault f => simp [tally, hstep] at h
  | refused r => simp [tally, hstep] at h
  | next t =>
    rcases htail : tally n t with _ | ⟨m', u'⟩
    · simp [tally, hstep, htail] at h
    · have hsum : tally (n + 1) s = some (tallied s t + m', u') := by
        cases hnext : nextOperation s <;> simp [tally, tallied, hstep, htail, hnext]
      cases hsum.symm.trans h
      exact ⟨t, m', rfl, htail, rfl⟩

/-- One step. -/
theorem step_xferCount {s t : State} (h : step s = .next t) : t.xferCount = s.xferCount + tallied s t := by
  rcases step_cases s with ⟨hs, e⟩ | ⟨r, rest, i, hs, hi, e⟩ | ⟨r, rest, hs, hop, e⟩ <;> rw [e] at h
  · cases h
    simp [tallied, nextOperation, hs]
  · obtain ⟨hcount, -⟩ := exec_counts_exchange h
    rw [tallied, nextOperation_of_request hs hi]
    exact hcount
  · cases h
    simp [tallied_of_unassigned hs hop]

/-- Any number of steps. -/
theorem tally_xferCount {n m : Nat} {s t : State} (h : tally n s = some (m, t)) : t.xferCount = s.xferCount + m := by
  induction n generalizing s m with
  | zero =>
    cases h
    rfl
  | succ n ih =>
    obtain ⟨u, m', hstep, htail, rfl⟩ := tally_succ h
    rw [ih htail, step_xferCount hstep, Nat.add_assoc]

/-- Settles O41: operation by operation, and so over any run. -/
theorem oneExchangePerBusOperation : Obligations.OneExchangePerBusOperation :=
  ⟨fun _ _ _ => exec_counts_exchange, fun _ _ _ _ => tally_xferCount⟩

end Sys2Proof.Machine
end

section
/-! PROOFS of the statements of spec/60_exceptions.md: the operations that are turned away (R136, R137), the errors of an
exchange (R129 to R131), and what every operation leaves of the error registers, the results and the session (R132, R134,
R135, R139, R141 to R145, R158). -/

namespace Sys2Proof.Machine

open Sys2Proof.Expect

/-! ## Between operations (R139) -/

/-- Settles O2: a step that is not idle takes a request from the list. -/
theorem stepWithoutRequestChangesNothing : Obligations.StepWithoutRequestChangesNothing := by
  intro s hs
  rcases step_cases s with ⟨-, e⟩ | ⟨r, rest, i, hcons, -⟩ | ⟨r, rest, hcons, -⟩
  · exact e
  · cases hs.symm.trans hcons
  · cases hs.symm.trans hcons

/-! ## Turned away at the gate or by a presence check (R136, R137) -/

/-- OPEN and the ten bus operations are the selectors 0 to 10 (R55). -/
theorem kind_of_op_le {i : Instr} (h : i.op.toNat ≤ 10) : ∃ k, i.kind = some k := by
  cases i with
  | validate | binbound | close => simp [Instr.op] at h
  | openSession | laserOn | laserOff | fanOn | fanOff | setFanPower | setLaserPower | readHistogram | readConfig
  | writeConfig | saveConfig => exact ⟨_, rfl⟩

theorem ne_openSession_of_op_pos {i : Instr} (h : 1 ≤ i.op.toNat) : i ≠ .openSession := by
  rintro rfl
  exact absurd h (by decide)

/-- Settles O26: the selector says that the operation has a command, and the gate turns it away in Closed. -/
theorem closedSessionRefusesBusOperations : Obligations.ClosedSessionRefusesBusOperations := by
  intro i s hop hs
  obtain ⟨k, hk⟩ := kind_of_op_le hop
  exact exec_bus_closed hk hs

/-- Settles O27: the gate, a presence check, or the selector turns the operation away. -/
theorem notReadyOperationsChangeNothing : Obligations.NotReadyOperationsChangeNothing := by
  refine ⟨fun s hs => ?opening, fun i s h1 h10 hs => ?bus, fun s hp => ?validate, fun s i hp => ?binbound,
    fun s r rest hr hop => ?unassigned⟩
  case opening => rcases hs with hs | hs <;> exact exec_open_notReady (by simp [hs]) (by simp [hs])
  case bus =>
    obtain ⟨k, hk⟩ := kind_of_op_le h10
    have ho := ne_openSession_of_op_pos h1
    rcases hs with hs | hs <;> exact exec_bus_notReady hk ho (by simp [hs]) (by simp [hs])
  case validate =>
    rcases exec_validate_cases s with ⟨-, e⟩ | ⟨h, -⟩ | ⟨h, -⟩ | ⟨h, -⟩
    · exact e
    all_goals simp [hp] at h
  case binbound =>
    rcases exec_binbound_cases i s with ⟨-, e⟩ | ⟨h, -⟩ | ⟨h, -⟩ | ⟨h, -⟩
    · exact e
    all_goals simp [hp] at h
  case unassigned =>
    rcases step_cases s with ⟨h, -⟩ | ⟨q, others, i, h, hi, -⟩ | ⟨q, others, h, -, e⟩ <;> cases hr.symm.trans h
    · rcases hop with hop | hop <;> simp [decodeRequest, hop] at hi
    · exact e

/-! ## The exchange fails, or its frame has a wrong length (R129, R130) -/

/-- OPEN falls back to the session it started from on every error but FirmwareError (R129, R130, R143). -/
theorem handshakeFailed_recordError {e : Error} {u : State} (he : e.code ≠ .firmware) (hu : u.session = .uninitialized) :
    handshakeFailed (recordError e { u with session := .handshaking }) = recordError e u := by
  have hback : { u with session := .uninitialized } = u := hu ▸ rfl
  have hsession : handshakeFailed (recordError e { u with session := .handshaking }) =
      { recordError e { u with session := .handshaking } with session := .uninitialized } := by
    simp [handshakeFailed, he]
  rw [hsession]
  conv_rhs => rw [← hback]
  cases e <;> rfl

/-- Every bus operation whose exchange fails (R106, R129). -/
theorem exec_admitted_fail {i : Instr} {k : CmdKind} {s : State} {rest : List Answer} (hk : i.kind = some k)
    (hA : Admitted i s) (ha : s.answers = .fail :: rest) :
    exec i s = .next (finish (recordError .transport (called k i.operand rest (clearErrors s)))) := by
  by_cases ho : i = .openSession
  · subst ho
    cases hk
    have hs := hA.uninitialized
    rw [exec_open_uninitialized hs, sendCommand_fail (s := { clearErrors s with session := .handshaking }) rfl ha]
    exact congrArg (Host.Outcome.next <| finish ·)
      (handshakeFailed_recordError (e := .transport) (u := called .info .none rest (clearErrors s)) nofun hs)
  · rw [exec_bus_ready hk ho (hA.ready ho), sendCommand_fail (s := clearErrors s) hA.inRange ha, andThen_raise,
      ending_raise]

/-- Settles O31: the state in which the exchange failed has nothing written but what the exchange writes. -/
theorem transportFailureKeepsTheSession : Obligations.TransportFailureKeepsTheSession :=
  fun _ _ _ _ hk hA ha => exec_admitted_fail hk hA ha

theorem decodeInfo_bad {u : State} (h : ¬ frameAccepted .info u) :
    decodeInfo u = raise (.framing (u.cfg.rlen .info) u.rxlen) u := by
  rw [decodeInfo, checkLength_bad h, andThen_raise]

/-- Every bus operation whose frame fails the length check (R83, R130). -/
theorem exec_admitted_bad {i : Instr} {k : CmdKind} {s : State} {r : List Byte} {rest : List Answer}
    (hk : i.kind = some k) (hA : Admitted i s) (ha : s.answers = .bytes r :: rest) (hbad : ¬ Accepted s.cfg k r) :
    exec i s = .next (finish (recordError (.framing (s.cfg.rlen k) (counted s.cfg r)) (answered k i.operand r rest s))) := by
  by_cases ho : i = .openSession
  · subst ho
    cases hk
    have hs := hA.uninitialized
    have hf : ¬ frameAccepted .info (receive r (handshake rest s)) := hbad
    rw [exec_open_bytes hs ha, decodeInfo_bad hf]
    exact congrArg (Host.Outcome.next <| finish ·) (handshakeFailed_recordError
      (e := .framing (s.cfg.rlen .info) (counted s.cfg r)) (u := answered .info .none r rest s) nofun hs)
  · have hf : ¬ frameAccepted k (receive r (called k i.operand rest (clearErrors s))) := hbad
    rw [exec_bus_bytes hk ho (hA.ready ho) ha hA.inRange, afterExchange_bad hk ho hf]
    rfl

/-- Settles O32: the length check comes before any decode, and `finish` voids the frame. -/
theorem badFrameLengthDecodesNothing : Obligations.BadFrameLengthDecodesNothing :=
  fun _ _ _ _ _ hk hA ha hbad => exec_admitted_bad hk hA ha hbad

/-! ## An unknown signature (R131) -/

/-- A string is what trimming takes off its front, what it keeps, and what it takes off its back (R94). -/
theorem take_append_slice_append_drop (raw : List Byte) {lo hi : Nat} (h : lo ≤ hi) :
    raw.take lo ++ slice raw lo hi ++ raw.drop hi = raw := by
  have hfront : raw.take lo = (raw.take hi).take lo := by rw [List.take_take, Nat.min_eq_left h]
  rw [slice, hfront, List.take_append_drop, List.take_append_drop]

/-- A frame that is no signature between whitespace classifies as none (R94, R95). -/
theorem classify_trim_none {sigs : List Signature} {ws raw : List Byte}
    (h : ∀ g ∈ sigs, ∀ pre post : List Byte, raw = pre ++ g.bytes ++ post → ∃ b ∈ pre ++ post, b ∉ ws) :
    classify sigs (slice raw (trim ws raw).1 (trim ws raw).2) = none := by
  cases hm : classify sigs (slice raw (trim ws raw).1 (trim ws raw).2) with
  | none => rfl
  | some m =>
    obtain ⟨g, hg, hbytes, -⟩ := classify_some hm
    obtain ⟨b, hb, hnot⟩ := h g hg (raw.take (trim ws raw).1) (raw.drop (trim ws raw).2)
      (by rw [hbytes, take_append_slice_append_drop raw (trim_lo_le_hi ws raw)])
    exact absurd (mem_ws_of_trimmed_off hb) hnot

/-- An accepted info frame of no signature (R93, R95); the receive buffer holds all of it (R6, R11). -/
theorem decodeInfo_receive_unknown {u : State} {r : List Byte} (hf : frameAccepted .info (receive r u))
    (hc : classify u.cfg.sigs (slice (r.take u.cfg.infoLen) (trim u.cfg.ws (r.take u.cfg.infoLen)).1
      (trim u.cfg.ws (r.take u.cfg.infoLen)).2) = none) :
    decodeInfo (receive r u) = raise (.firmware (r.take u.cfg.infoLen)) (receive r u) := by
  have hrx : u.cfg.infoLen ≤ u.cfg.rxMax := rlen_le_rxMax u.cfg .info
  have hraw : (receive r u).rxbuf.take u.cfg.infoLen = r.take u.cfg.infoLen := by
    rw [receive, List.take_take, Nat.min_eq_left hrx]
  simp only [decodeInfo, checkLength_ok hf, andThen_go, receive_cfg, hraw, hc]

/-- An accepted frame has the bytes that are expected (R11, R83). -/
theorem length_take_rlen {c : Cfg} {k : CmdKind} {r : List Byte} (h : Accepted c k r) :
    (r.take (c.rlen k)).length = c.rlen k := by
  obtain ⟨hlen, -⟩ := h
  exact List.length_take_of_le (hlen.trans (Nat.min_le_left _ _))

/-- Settles O33: the trimmed frame is no signature, so the handshake ends in FirmwareError with the frame recorded. -/
theorem unknownSignatureFailsTheSession : Obligations.UnknownSignatureFailsTheSession := by
  intro s r rest hs ha hacc hunknown
  have hf : frameAccepted .info (receive r (handshake rest s)) := hacc
  have hlen : (r.take s.cfg.infoLen).length = s.cfg.infoLen := length_take_rlen hacc
  rw [exec_open_bytes hs ha, decodeInfo_receive_unknown (u := handshake rest s) hf (classify_trim_none hunknown)]
  exact congrArg (fun n => Host.Outcome.next { finish (handshakeFailed (recordError (.firmware (r.take s.cfg.infoLen))
    (receive r (handshake rest s)))) with errSiglen := n }) hlen

/-! ## How an operation ends (R127 to R136) -/

/-- The registers an operation delivers its results in hold what they held (R158). -/
def ResultsKept (s t : State) : Prop :=
  t.hist = s.hist ∧ t.histPresent = s.histPresent ∧ t.valid = s.valid ∧ t.cfgr = s.cfgr ∧
  t.cfgPresent = s.cfgPresent ∧ t.bbout = s.bbout ∧ t.info = s.info ∧ t.infoPresent = s.infoPresent ∧
  t.layout = s.layout ∧ t.laser = s.laser ∧ t.fan = s.fan

theorem ResultsKept.refl (s : State) : ResultsKept s s := ⟨rfl, rfl, rfl, rfl, rfl, rfl, rfl, rfl, rfl, rfl, rfl⟩

/-- What a ChecksumMismatch says of the state it is raised in (R101, R132). -/
def JudgedFalse (s u : State) : Prop :=
  u.valid = false ∧ u.session = s.session ∧ u.histPresent = true ∧ ∃ h, u.hist = some h ∧ ¬ ChecksumHolds h

/-- Every operation that ends records no error, or an error other than ChecksumMismatch with the results kept, or a
ChecksumMismatch as one of the two operations that validate. An error is recorded over cleared error registers. -/
theorem exec_end_cases {i : Instr} {s t : State} (h : exec i s = .next t) :
    clearErrors t = t ∨
    (∃ e u, t = finish (recordError e u) ∧ clearErrors u = u ∧ e.code ≠ .checksum ∧ ResultsKept s u) ∨
    (∃ u, t = finish (recordError .checksum u) ∧ clearErrors u = u ∧ (i = .readHistogram ∨ i = .validate) ∧
      JudgedFalse s u) := by
  rcases exec_next_cases h with ⟨e, he, rfl⟩ | ⟨k, rest, -, -, -, rfl⟩ | ⟨k, r, rest, -, -, -, -, rfl⟩ |
    ⟨k, r, rest, -, -, -, -, -, rfl⟩ | ⟨rfl, -, r, rest, -, -, rfl⟩ |
    ⟨rfl, -, r, rest, l, -, -, ⟨-, rfl⟩ | ⟨hv, rfl⟩⟩ |
    ⟨rfl, -, r, rest, -, -, ⟨-, rfl⟩ | ⟨m, -, rfl⟩⟩ |
    ⟨rfl, hp, x, hx, ⟨-, rfl⟩ | ⟨hv, rfl⟩⟩ | ⟨x, c, rfl, -, -, rfl⟩ | ⟨rfl, rfl⟩
  · -- turned away before the exchange
    refine .inr (.inl ⟨e, _, rfl, rfl, ?_, .refl s⟩)
    rcases he with ⟨rfl, -⟩ | rfl | ⟨f, v, rfl, -⟩ <;> nofun
  · -- the transport failed
    exact .inr (.inl ⟨_, _, rfl, rfl, nofun, .refl s⟩)
  · -- the frame's length was not accepted
    exact .inr (.inl ⟨_, _, rfl, rfl, nofun, .refl s⟩)
  · -- an acknowledge frame
    exact .inl (congrArg finish (clearErrors_settled i _))
  · -- READ_CONFIG
    exact .inl rfl
  · -- READ_HISTOGRAM, the checksum holds
    exact .inl rfl
  · -- READ_HISTOGRAM, the checksum fails
    exact .inr (.inr ⟨_, rfl, rfl, .inl rfl, rfl, rfl, rfl, _, rfl, hv⟩)
  · -- OPEN, an unknown signature
    exact .inr (.inl ⟨.firmware _, { answered .info .none r rest s with session := .firmwareFailed }, rfl, rfl, nofun,
      .refl s⟩)
  · -- OPEN, a signature of `SIGS`
    exact .inl rfl
  · -- VALIDATE, the checksum holds
    exact .inl rfl
  · -- VALIDATE, the checksum fails
    exact .inr (.inr ⟨_, rfl, rfl, .inr rfl, rfl, rfl, hp, x, hx, hv⟩)
  · -- BINBOUND
    exact .inl rfl
  · -- CLOSE
    exact .inl rfl

theorem err_of_clearErrors_eq {t : State} (h : clearErrors t = t) : t.err = .none := h ▸ clearErrors_err t

/-- Settles O34: of the three ways to end, only the validation step's is a ChecksumMismatch. -/
theorem checksumMismatchKeepsTheData : Obligations.ChecksumMismatchKeepsTheData := by
  intro i s t h herr
  rcases exec_end_cases h with hclear | ⟨e, u, rfl, -, he, -⟩ | ⟨u, rfl, -, hi, hjudged⟩
  · rw [err_of_clearErrors_eq hclear] at herr
    cases herr
  · exact absurd ((recordError_err e u).symm.trans herr) he
  · exact ⟨hi, hjudged⟩

/-- Settles O40: an operation that raised another error than ChecksumMismatch did so before it wrote a result. -/
theorem failedOperationsKeepTheResults : Obligations.FailedOperationsKeepTheResults := by
  intro i s t h hnone hchecksum
  rcases exec_end_cases h with hclear | ⟨e, u, rfl, -, -, hkept⟩ | ⟨u, rfl, -⟩
  · exact absurd (err_of_clearErrors_eq hclear) hnone
  · simpa [ResultsKept] using hkept
  · exact absurd rfl hchecksum

/-! ## The error registers (R134, R135) -/

/-- A context register holds nothing unless `ERR` is the kind that records it (R20, R128). -/
def ContextIsOfItsKind (t : State) : Prop :=
  (t.err ≠ .framing → t.errExpected = 0 ∧ t.errActual = 0) ∧
  (t.err ≠ .firmware → t.errSig = none ∧ t.errSiglen = 0) ∧
  (t.err ≠ .range → t.errValue = 0 ∧ t.errField = 0)

theorem contextIsOfItsKind_clearErrors (u : State) : ContextIsOfItsKind (clearErrors u) := by simp [ContextIsOfItsKind]

theorem contextIsOfItsKind_recordError (e : Error) (u : State) : ContextIsOfItsKind (recordError e (clearErrors u)) := by
  cases e <;> simp [ContextIsOfItsKind, recordError]

/-- The skeleton clears the error registers before the gate reads anything (R134). -/
theorem exec_eq_of_clearErrors_eq (i : Instr) {s s' : State} (h : clearErrors s' = clearErrors s) :
    exec i s' = exec i s := by
  obtain ⟨body, hexec⟩ := exec_operation i
  rw [hexec, hexec, operation_eq, operation_eq, h]

/-- Settles O38: the operation starts from cleared error registers and records at most one error in them. -/
theorem errorRegistersDescribeTheLastOperation : Obligations.ErrorRegistersDescribeTheLastOperation := by
  refine fun i s => ⟨fun e x a n g v f => exec_eq_of_clearErrors_eq i rfl, fun t h => ?_⟩
  rcases exec_end_cases h with hclear | ⟨e, u, rfl, hclear, -⟩ | ⟨u, rfl, hclear, -⟩
  · exact (hclear ▸ contextIsOfItsKind_clearErrors t : ContextIsOfItsKind t)
  · exact (hclear ▸ contextIsOfItsKind_recordError e u : ContextIsOfItsKind (recordError e u))
  · exact (hclear ▸ contextIsOfItsKind_recordError .checksum u : ContextIsOfItsKind (recordError .checksum u))

/-! ## The session (R141 to R145) -/

/-- OPEN leaves the session where it was, or moves it from Uninitialized to Ready or, on a FirmwareError, to
FirmwareFailed (R109, R142, R143). -/
theorem exec_open_session_cases {s t : State} (h : exec .openSession s = .next t) :
    t.session = s.session ∨
    (s.session = .uninitialized ∧ t.session = .ready ∧ t.err = .none ∧ t.layout.isSome = true ∧ t.laser = .unknown ∧
      t.fan = .unknown) ∨
    (s.session = .uninitialized ∧ t.session = .firmwareFailed ∧ t.err = .firmware) := by
  rcases exec_open_cases s with ⟨-, e⟩ | ⟨-, -, e⟩ | ⟨-, -, e⟩ | ⟨hs, rest, -, e⟩ |
    ⟨hs, r, rest, -, ⟨-, -, e⟩ | ⟨m, -, -, e⟩ | ⟨-, e⟩⟩ <;> cases e.symm.trans h
  · -- Closed
    exact .inl rfl
  · -- neither Closed nor Uninitialized
    exact .inl rfl
  · -- the transport failed
    exact .inl hs.symm
  · -- an unknown signature
    exact .inr (.inr ⟨hs, rfl, rfl⟩)
  · -- a signature of `SIGS`
    exact .inr (.inl ⟨hs, rfl, rfl, rfl, rfl, rfl⟩)
  · -- the frame's length was not accepted
    exact .inl hs.symm

/-- Any other operation but CLOSE leaves the session alone. -/
theorem exec_session_of_ne {i : Instr} {s t : State} (h : exec i s = .next t) (ho : i ≠ .openSession) (hc : i ≠ .close) :
    t.session = s.session := by
  obtain ⟨-, -, -, -, -, -, -, -, hsession, -⟩ := onlyTheWritersWrite i s t h
  exact hsession ho hc

/-- Settles O43: CLOSE ends in Closed, OPEN moves Uninitialized alone, and no other operation moves the session. -/
theorem sessionTransitions : Obligations.SessionTransitions := by
  intro i s t h
  by_cases hc : i = .close
  · subst hc
    cases (exec_close s).symm.trans h
    simp
  by_cases ho : i = .openSession
  · subst ho
    rcases exec_open_session_cases h with hsame | ⟨hs, ht, hrest⟩ | ⟨hs, ht, herr⟩
    · simp +contextual [hsame]
    · simp [hs, ht, hrest]
    · simp [hs, ht, herr]
  · simp +contextual [exec_session_of_ne h ho hc]

end Sys2Proof.Machine
end

section
/-! PROOFS of the statements of spec/70_reset_and_hazards.md: what reset leaves in the registers (R150). -/

namespace Sys2Proof.Machine

/-- Settles O3: the model's reset puts the spec's value into each register itself and takes only `CFG` from outside. -/
theorem resetLeavesTheSpecValues : Obligations.ResetLeavesTheSpecValues := by
  rintro c s rfl
  simp only [State.resetWith, and_self]

end Sys2Proof.Machine
end
